-- ==== Sys2Proof/Word.lean ====
section
/-! DEFINITION. The word types of the spec (00_scope R12) and the transfer direction (30_encoding R101). -/
namespace Sys2Proof

/-- One bus-master register access: 32 bits (R12). -/
abbrev Word := BitVec 32

/-- One payload byte (R12, R39). -/
abbrev Byte := BitVec 8

/-- A sensor register or raw reading: 16 bits (R12, R109). -/
abbrev Half := BitVec 16

/-- The direction of a transfer: send (bus write) or receive (bus read), R101. -/
inductive Dir where
  | send
  | recv
  deriving DecidableEq, Repr

end Sys2Proof
end

