-- ==== Sys2Proof/Config.lean ====
section
/-! DEFINITION. The implementation parameters of 00_scope R11 as plain data, their defaults, and the free value.
Every statement holds for every value of the parameters, because the machine carries them as a field no operation
writes (log entry 1). -/
namespace Sys2Proof

/-- `BusRegLayout` (R11, 30_encoding R103 to R106): the bit positions of the logical fields in the physical registers. A
multi-bit field lists its positions from its least significant bit up. -/
structure BusRegLayout where
  /-- the seven bits of `A` in the address word -/
  saAddr : List Nat
  /-- `D` in the address word -/
  saDir : Nat
  ctlRun : Nat
  ctlStart : Nat
  ctlStop : Nat
  ctlAck : Nat
  stBusy : Nat
  stAdrNack : Nat
  stDataNack : Nat
  stBusErr : Nat
  /-- the eight bits of the byte in the data word -/
  dataByte : List Nat
  deriving DecidableEq, Repr

/-- The parameters of R11 that are not fixed by the source. -/
structure Params where
  /-- `DEV_ADDR` (D9) -/
  devAddr : BitVec 7
  /-- `LOWLIMIT_WORD` (D10) -/
  lowLimitWord : Half
  /-- `CONFIG_WORD` (D11) -/
  configWord : Half
  /-- `BUSY_LEVEL` (D8) -/
  busyLevel : Bool
  /-- `ADDR_SA` (D7) -/
  addrSA : Word
  /-- `ADDR_STATUS` (D7) -/
  addrStatus : Word
  /-- `ADDR_CTL` (D7) -/
  addrCtl : Word
  /-- `ADDR_DR` (D7) -/
  addrDR : Word
  /-- `PIN_ADDR` (D8) -/
  pinAddr : Word
  /-- `PIN_MASK` (D8) -/
  pinMask : Word
  /-- `BusRegLayout` (D6) -/
  layout : BusRegLayout
  deriving DecidableEq, Repr

/-- The default `BusRegLayout` of R104, R105 and R106 (the spec marks it general knowledge; log entry 3). -/
def BusRegLayout.default : BusRegLayout where
  saAddr := [1, 2, 3, 4, 5, 6, 7]
  saDir := 0
  ctlRun := 0
  ctlStart := 1
  ctlStop := 2
  ctlAck := 3
  stBusy := 0
  stAdrNack := 2
  stDataNack := 3
  stBusErr := 4
  dataByte := [0, 1, 2, 3, 4, 5, 6, 7]

/-- The defaults of R11 and R103 over the three parameters that have none: `BM_BASE`, `PIN_ADDR`, `PIN_MASK`. -/
def Params.default (bmBase pinAddr pinMask : Word) : Params where
  devAddr := 0x47
  lowLimitWord := 0xC000
  configWord := 0xCA10
  busyLevel := true
  addrSA := bmBase + 0x000
  addrStatus := bmBase + 0x004
  addrCtl := bmBase + 0x004
  addrDR := bmBase + 0x008
  pinAddr := pinAddr
  pinMask := pinMask
  layout := BusRegLayout.default

/-- FREE VALUE (log entries 5 and 6): what the spec leaves to the outside world or leaves unspecified. It has no body, so
nothing can be proved of any of its values. -/
opaque Config.freeWord : Nat → Word

end Sys2Proof
end

