-- ==== Sys2Proof/Syntax.lean ====
section
/-! DEFINITION. The operations of CORE: one constructor for each of the 28 rows of spec/opcode_table.json (30_encoding
R117). Operands are those the operation's own rule gives it; the table gives them no bits (log entry 12). -/
namespace Sys2Proof

inductive Instr where
  -- register-port micro-operations (40_port_and_bus_commands R141 to R146)
  | rdStatus
  | wrAddr (a : BitVec 7) (d : Dir)
  | wrData (b : Byte)
  | wrCtl (c : BitVec 4)
  | rdData
  | rdPin
  -- bus command words (40_port_and_bus_commands R151 to R157)
  | sendSingle
  | sendStart
  | sendCont
  | sendFinish
  | sendErrStop
  | recvStartAck
  | recvFinish
  -- transport primitives (41_transport R180 to R186)
  | waitIdle
  | errSample
  | send1 (b0 : Byte)
  | send2 (b0 b1 : Byte)
  | send3 (b0 b1 b2 : Byte)
  | recv2
  -- sensor protocol (42_sensor_protocol R220 to R228)
  | decode
  | cfgLatchClr
  | cfgLatchSet
  | beginConv
  | readResult
  -- acquisition (43_acquisition R264, R261 to R263)
  | waitDone
  | start
  | pollEnd
  | blockingRead
  deriving DecidableEq, Repr

end Sys2Proof
end

