-- ==== Sys2Proof/WellFormed.lean ====
section
/-! DEFINITION. When an operation, as a term, is one CORE can have. The only operand the spec limits by itself is the control
word of WR_CTL (40_port_and_bus_commands R144, 30_encoding R107). -/
namespace Sys2Proof

/-- `c` is the control half of one of the seven bus command words of R107, in one direction or the other. -/
def isBcwControl (c : BitVec 4) : Bool :=
  [0b0111#4, 0b0011#4, 0b0001#4, 0b0101#4, 0b0100#4, 0b1011#4].contains c

/-- The check on one operation: "CORE never writes a control word outside the seven BCWs" (R144). -/
def Instr.wf : Instr → Bool
  | .wrCtl c => isBcwControl c
  | _ => true

end Sys2Proof
end

