-- ==== Sys2Proof/Decode.lean ====
section
/-! DEFINITION. Decoding and encoding of operations (30_encoding R107, R110, R111, R113, R117).
A value of a format is masked and looked up in that format's rows; a value that matches no row is rejected by name. An
operation is a list of bytes: the format's value in the first byte, then the operand bytes (DESIGN CHOICE, log entry 12:
the table gives operands no bits). The four formats overlap as plain numbers, so a format stands beside the bytes. -/
namespace Sys2Proof

/-- The four formats of R117. -/
inductive Format where
  | port
  | bcw
  | seq
  | hcmd
  deriving DecidableEq, Repr

/-- Why bytes are no operation. -/
inductive DecodeError where
  /-- no byte to read -/
  | empty
  /-- an operand byte is missing -/
  | truncated
  /-- a PORT tag 0b110 or 0b111 (R111: unused) -/
  | unusedPortTag
  /-- one of the 25 bus command words CORE never writes (R113) -/
  | reservedBcw
  /-- a SEQ tag 0xC to 0xF (R111: unused) -/
  | unusedSeqTag
  /-- `CMD_OP` = 0b00 (R110: reserved) -/
  | reservedCommand
  /-- a bit outside `CTL[3:0]` in the operand byte of WR_CTL (R113) -/
  | controlBits
  deriving DecidableEq, Repr

/-- The direction bit `D` of a bus command word and of the address word (R101: 0 send, 1 receive). -/
def dirBit : Dir → BitVec 1
  | .send => 0
  | .recv => 1

/-- The direction a bit stands for (R101). -/
def dirOfBit (b : BitVec 1) : Dir := if b = 0 then .send else .recv

/-- The width of a format's value in bits (R117's masks). -/
def formatWidth : Format → Nat
  | .port => 3
  | .bcw => 5
  | .seq => 4
  | .hcmd => 2

/-- The seven bus command words of R107. -/
def decodeBcw (v : BitVec 5) : Except DecodeError Instr :=
  match v with
  | 0x07#5 => .ok .sendSingle
  | 0x03#5 => .ok .sendStart
  | 0x01#5 => .ok .sendCont
  | 0x05#5 => .ok .sendFinish
  | 0x04#5 => .ok .sendErrStop
  | 0x1B#5 => .ok .recvStartAck
  | 0x15#5 => .ok .recvFinish
  | _ => .error .reservedBcw

/-- The host command op codes of R110. -/
def decodeCommand (v : BitVec 2) : Except DecodeError Instr :=
  match v with
  | 0b01#2 => .ok .start
  | 0b10#2 => .ok .pollEnd
  | 0b11#2 => .ok .blockingRead
  | _ => .error .reservedCommand

/-- The port tags of R111, with their operand bytes. -/
def decodePort (v : BitVec 3) (bs : List Byte) : Except DecodeError (Instr × List Byte) :=
  match v with
  | 0b000#3 => .ok (.rdStatus, bs)
  | 0b001#3 =>
    match bs with
    | b :: rest => .ok (.wrAddr (b.extractLsb' 1 7) (dirOfBit (b.extractLsb' 0 1)), rest)
    | [] => .error .truncated
  | 0b010#3 =>
    match bs with
    | b :: rest => .ok (.wrData b, rest)
    | [] => .error .truncated
  | 0b011#3 =>
    match bs with
    | b :: rest =>
      if b.extractLsb' 4 4 = 0#4 then .ok (.wrCtl (b.extractLsb' 0 4), rest) else .error .controlBits
    | [] => .error .truncated
  | 0b100#3 => .ok (.rdData, bs)
  | 0b101#3 => .ok (.rdPin, bs)
  | _ => .error .unusedPortTag

/-- The sequencer tags of R111, with their operand bytes. -/
def decodeSeq (v : BitVec 4) (bs : List Byte) : Except DecodeError (Instr × List Byte) :=
  match v with
  | 0x0#4 => .ok (.waitIdle, bs)
  | 0x1#4 => .ok (.errSample, bs)
  | 0x2#4 =>
    match bs with
    | b0 :: rest => .ok (.send1 b0, rest)
    | _ => .error .truncated
  | 0x3#4 =>
    match bs with
    | b0 :: b1 :: rest => .ok (.send2 b0 b1, rest)
    | _ => .error .truncated
  | 0x4#4 =>
    match bs with
    | b0 :: b1 :: b2 :: rest => .ok (.send3 b0 b1 b2, rest)
    | _ => .error .truncated
  | 0x5#4 => .ok (.recv2, bs)
  | 0x6#4 => .ok (.decode, bs)
  | 0x7#4 => .ok (.cfgLatchClr, bs)
  | 0x8#4 => .ok (.cfgLatchSet, bs)
  | 0x9#4 => .ok (.beginConv, bs)
  | 0xA#4 => .ok (.readResult, bs)
  | 0xB#4 => .ok (.waitDone, bs)
  | _ => .error .unusedSeqTag

/-- An operation without operand bytes, beside the bytes that follow it. -/
def withRest (r : Except DecodeError Instr) (bs : List Byte) : Except DecodeError (Instr × List Byte) :=
  match r with
  | .ok i => .ok (i, bs)
  | .error e => .error e

/-- The decoder of R117: mask the first byte to the format's width, look it up, read the operands. -/
def decode (f : Format) (bytes : List Byte) : Except DecodeError (Instr × List Byte) :=
  match bytes with
  | [] => .error .empty
  | v :: bs =>
    match f with
    | .port => decodePort (v.setWidth 3) bs
    | .bcw => withRest (decodeBcw (v.setWidth 5)) bs
    | .seq => decodeSeq (v.setWidth 4) bs
    | .hcmd => withRest (decodeCommand (v.setWidth 2)) bs

/-- The format whose row an operation is (R117). -/
def formatOf : Instr → Format
  | .rdStatus => .port
  | .wrAddr _ _ => .port
  | .wrData _ => .port
  | .wrCtl _ => .port
  | .rdData => .port
  | .rdPin => .port
  | .sendSingle => .bcw
  | .sendStart => .bcw
  | .sendCont => .bcw
  | .sendFinish => .bcw
  | .sendErrStop => .bcw
  | .recvStartAck => .bcw
  | .recvFinish => .bcw
  | .waitIdle => .seq
  | .errSample => .seq
  | .send1 _ => .seq
  | .send2 _ _ => .seq
  | .send3 _ _ _ => .seq
  | .recv2 => .seq
  | .decode => .seq
  | .cfgLatchClr => .seq
  | .cfgLatchSet => .seq
  | .beginConv => .seq
  | .readResult => .seq
  | .waitDone => .seq
  | .start => .hcmd
  | .pollEnd => .hcmd
  | .blockingRead => .hcmd

/-- The bytes of an operation: its row's value of R117, then its operands. The operand byte of WR_ADDR is the address
word's `{A[6:0], D}` (R100), that of WR_CTL is `CTL[3:0]` (R102), and the others are payload bytes. -/
def encode : Instr → List Byte
  | .rdStatus => [0b000#8]
  | .wrAddr a d => [0b001#8, a ++ dirBit d]
  | .wrData b => [0b010#8, b]
  | .wrCtl c => [0b011#8, c.setWidth 8]
  | .rdData => [0b100#8]
  | .rdPin => [0b101#8]
  | .sendSingle => [0x07#8]
  | .sendStart => [0x03#8]
  | .sendCont => [0x01#8]
  | .sendFinish => [0x05#8]
  | .sendErrStop => [0x04#8]
  | .recvStartAck => [0x1B#8]
  | .recvFinish => [0x15#8]
  | .waitIdle => [0x0#8]
  | .errSample => [0x1#8]
  | .send1 b0 => [0x2#8, b0]
  | .send2 b0 b1 => [0x3#8, b0, b1]
  | .send3 b0 b1 b2 => [0x4#8, b0, b1, b2]
  | .recv2 => [0x5#8]
  | .decode => [0x6#8]
  | .cfgLatchClr => [0x7#8]
  | .cfgLatchSet => [0x8#8]
  | .beginConv => [0x9#8]
  | .readResult => [0xA#8]
  | .waitDone => [0xB#8]
  | .start => [0b01#8]
  | .pollEnd => [0b10#8]
  | .blockingRead => [0b11#8]

/-- The format a table word is read in. A width that is a format's own (2, 3, 4 or 5 bits) names it. In a whole byte the
table's formats overlap; the model then reads the narrowest format that has a row with this value
(DESIGN CHOICE, log entry 12). -/
def tableFormat (nbits w : Nat) : Format :=
  match nbits with
  | 2 => .hcmd
  | 3 => .port
  | 4 => .seq
  | 5 => .bcw
  | _ =>
    let v := w % 256
    if v = 0 then .port
    else if v < 4 then .hcmd
    else if v < 6 then .port
    else if v < 12 then .seq
    else .bcw

/-- The bytes of a table word: four, the longest operation's, first byte lowest; every bit above `nbits` is 0. -/
def tableBytes (nbits w : Nat) : List Byte :=
  let v := w % 2 ^ nbits
  [BitVec.ofNat 8 v, BitVec.ofNat 8 (v / 256), BitVec.ofNat 8 (v / 65536), BitVec.ofNat 8 (v / 16777216)]

/-- What the decoder reads from a word of spec/opcode_table.json (log entry 12). -/
def decodeTableWord (nbits w : Nat) : Option Instr :=
  match decode (tableFormat nbits w) (tableBytes nbits w) with
  | .ok (i, _) => some i
  | .error _ => none

end Sys2Proof
end

