-- ==== Sys2Proof/Machine/State.lean ====
section
/-! DEFINITION. The state of one CORE instance (10_state R31 to R57), as plain data, and its value after reset. -/
namespace Sys2Proof.Machine

/-- AcquisitionState (R36). The encoding 0b11 is unused and has no constructor (log entry 23). -/
inductive Acq where
  | idle
  | measuring
  | ready
  deriving DecidableEq, Repr

/-- The host operations `CUR_OP` names (R33). -/
inductive HostOp where
  | start
  | pollEnd
  | blockingRead
  deriving DecidableEq, Repr

/-- Labels of the host commands' pseudocode (43_acquisition R261 to R265). -/
inductive HostLabel where
  /-- at `BEGIN_CONV()` -/
  | begin
  /-- at the one `RD_PIN()` of POLL_END -/
  | pin
  /-- at `WAIT_DONE()` -/
  | wait
  /-- at `READ_RESULT()` -/
  | read
  /-- at `COMPLETE(ready)` -/
  | complete (ready : Bool)
  deriving DecidableEq, Repr

/-- Labels of BEGIN_CONV and READ_RESULT (42_sensor_protocol R225, R228). -/
inductive ProtoLabel where
  | bLL
  | bCF
  | bCLR
  | tP0
  | tR0
  | tDEC
  | tP1
  | tR1
  | tLC
  | tLS
  deriving DecidableEq, Repr

/-- Labels of SEND(n) and RECV2 (41_transport R182, R186). -/
inductive TransLabel where
  | sW0
  | sSA
  | sD0
  | sC0
  | sW1
  | sE
  | sAB
  | sD
  | sC
  | sW
  | sEF
  | rW0
  | rSA
  | rC0
  | rW1
  | rB0
  | rC1
  | rW2
  | rB1
  | rE
  deriving DecidableEq, Repr

/-- The fourth level of R34: a loop of WAIT_IDLE (R180) or WAIT_DONE (R264) that has not met its exit yet. -/
inductive LeafLabel where
  | waitIdle
  | waitDone
  deriving DecidableEq, Repr

/-- The sequencer position (R33, R34): a bounded tuple of `CUR_OP` and one label a level. -/
structure Pos where
  curOp : Option HostOp
  host : Option HostLabel
  proto : Option ProtoLabel
  trans : Option TransLabel
  leaf : Option LeafLabel
  deriving DecidableEq, Repr

/-- The position "no command in progress" (R57). -/
def Pos.rest : Pos := ⟨none, none, none, none, none⟩

/-- The datapath registers of R32 whose reset value is unspecified. -/
structure Scratch where
  tx0 : Byte
  tx1 : Byte
  tx2 : Byte
  n : BitVec 2
  i : BitVec 2
  att : BitVec 3
  rb0 : Byte
  rb1 : Byte
  /-- the error indicator: bit 0 ADR_NACK, bit 1 DATA_NACK, bit 2 BUS_ERR (R40) -/
  e : BitVec 3
  x : Bool
  /-- the register `CFG` (R44) -/
  cfgWord : Half
  rr : Half
  mag : BitVec 27
  p : Bool
  deriving DecidableEq, Repr

/-- The fields of CORE_STATUS (R46) other than ACQ, which has its own home. -/
structure Stat where
  coreBusy : Bool
  respValid : Bool
  respReady : Bool
  lastErr : BitVec 3
  accErr : BitVec 3
  resExh : Bool
  anyExh : Bool
  cmdOverrun : Bool
  cmdIllegal : Bool
  deriving DecidableEq, Repr

/-- The logical status of the bus master (R54, 40_port_and_bus_commands R141). -/
structure PortStatus where
  busy : Bool
  adrNack : Bool
  dataNack : Bool
  busErr : Bool
  deriving DecidableEq, Repr

/-- What CORE last wrote to the address+direction and data fields of the bus master: what is in effect at the next launch
(20_memory R75, R82). It belongs to the bus master, so RST leaves it (70 R343; log entry 9). -/
structure BusPort where
  addr : BitVec 7
  dir : Dir
  byte : Byte
  deriving DecidableEq, Repr

/-- Which field a 32-bit read of the outside reaches (20_memory R70). -/
inductive ReadChan where
  | status
  | data
  | pin
  deriving DecidableEq, Repr

/-- Which field a 32-bit write that launches nothing reaches (20_memory R70). -/
inductive WriteChan where
  | addr
  | data
  deriving DecidableEq, Repr

/-- One interface event (00_scope R16), with the physical address and the 32-bit word that crossed the interface. In the
notation of 30_encoding R116: `read` is RS, RD or RP; `write` is WA or WD; `launch` is WC; `resp` is RESP. -/
inductive Event where
  | read (c : ReadChan) (addr word : Word)
  | write (c : WriteChan) (addr word : Word)
  /-- a control write: the bus command word it requests, and the address and byte in effect at the launch (R82, R107) -/
  | launch (addr word : Word) (bcw : BitVec 5) (target : BitVec 7) (byte : Byte)
  | resp (ready : Bool) (result : Word) (raw : Half)
  deriving DecidableEq, Repr

/-- What the outside may do at one event boundary (R52, 70 R340; log entry 7). -/
inductive HostMove where
  /-- nothing: CORE performs its next operation -/
  | quiet
  /-- a command event: `CMD_VALID` = 1 with `CMD_OP` = `op` -/
  | cmd (op : BitVec 2)
  /-- the reset input is asserted -/
  | rst
  deriving DecidableEq, Repr

/-- One encoded operation to be run by itself (log entry 11). -/
structure RawOp where
  fmt : Format
  bytes : List Byte
  deriving DecidableEq, Repr

/-- The state of one CORE instance, its configuration, and its view of the outside. -/
structure State where
  /-- the parameters of R11: configuration, which no operation writes (log entry 1) -/
  cfg : Params
  /-- `ACQ` (R36) -/
  acq : Acq
  /-- the sequencer position (R33) -/
  pos : Pos
  /-- the registers of R32 unspecified at reset -/
  scr : Scratch
  /-- the fields of CORE_STATUS (R46) -/
  stat : Stat
  /-- `RAW` (R43) -/
  raw : Half
  /-- `RESULT` (R45) -/
  result : Word
  /-- what the last RD_STATUS returned: the pseudocode's `st` (log entry 10) -/
  st : PortStatus
  /-- what the last RD_DATA returned (log entry 10) -/
  rd : Byte
  /-- the fields of the bus master as CORE last set them (log entry 9) -/
  port : BusPort
  /-- what the outside does at the coming event boundaries (log entry 7) -/
  hostIn : List HostMove
  /-- the oracle's coming answers, in the order they are consumed; after them, free values (log entry 6) -/
  answers : List Word
  /-- the plain counter the free values are applied to (log entries 5, 6) -/
  draws : Nat
  /-- the interface events so far, newest first (log entry 8) -/
  trace : List Event
  /-- an operation to be run by itself when no sequence is in progress (log entry 11) -/
  slot : Option RawOp
  deriving DecidableEq, Repr

/-- Why the machine stops with a fault. CORE itself has no trap (60_exceptions R300). -/
inductive Fault where
  /-- Raised by the choice of the next operation at label S_D when `I` = 3: TX[3] does not exist, and TX[i] for i >= N is never
  read (R39). Safe: no run from reset reaches it (log entry 20). -/
  | txIndex
  deriving DecidableEq, Repr

/-- Why the model gives a state no step. -/
inductive Refusal where
  /-- Raised by an arm of `exec` that has no meaning yet. Safe. -/
  | notModelled (mnemonic : String)
  /-- Raised by a control write whose word, with the direction last written, is none of the seven bus command words (30_encoding
  R113; 93 U4: refuse). Safe (log entry 14). -/
  | reservedBcw
  /-- Raised by a bus command word whose direction is not the direction last written, so that its control write would be
  another word (30_encoding R107). Safe (log entry 14). -/
  | bcwDirection
  /-- Raised by the slot when its bytes are no operation (30_encoding R113, R117). Safe (log entry 11). -/
  | badEncoding (why : DecodeError)
  /-- Raised by `step`: an address parameter is not a multiple of 4 (20_memory R72; 93 U15: refuse). Safe (log entry 19). -/
  | misalignedAddress
  /-- Raised by `step`: `CONFIG_WORD` lacks the latch bit (42_sensor_protocol R226; 93 U16: refuse). Safe (log entry 19). -/
  | configWithoutLatch
  /-- Raised by `step`: `PIN_MASK` has not exactly one bit set (20_memory R70). Safe (log entry 19). -/
  | pinMaskNotOneBit
  /-- Raised by `step`: `BusRegLayout` does not give each logical bit a place of its own in its 32-bit word (30_encoding R112).
  Safe (log entry 19). -/
  | layoutInvalid
  deriving DecidableEq, Repr

/-- The scratch registers right after reset: the spec leaves them unspecified (R340); zero is the model's choice, DESIGN CHOICE
(log entry 4). -/
def Scratch.zero : Scratch where
  tx0 := 0
  tx1 := 0
  tx2 := 0
  n := 0
  i := 0
  att := 0
  rb0 := 0
  rb1 := 0
  e := 0
  x := false
  cfgWord := 0
  rr := 0
  mag := 0
  p := false

/-- CORE_STATUS less ACQ, all fields 0 (R46, R340). -/
def Stat.zero : Stat where
  coreBusy := false
  respValid := false
  respReady := false
  lastErr := 0
  accErr := 0
  resExh := false
  anyExh := false
  cmdOverrun := false
  cmdIllegal := false

/-- The machine right after reset (R57, 70 R340). `ACQ`, the position, CORE_STATUS, RESULT and RAW are the spec's; the rest are
values named in log entries 2 to 11. -/
def State.reset : State where
  cfg := Params.default 0x00000000 0x00000100 0x00000001
  acq := .idle
  pos := Pos.rest
  scr := Scratch.zero
  stat := Stat.zero
  raw := 0
  result := 0
  st := ⟨false, false, false, false⟩
  rd := 0
  port := ⟨0, .send, 0⟩
  hostIn := []
  answers := []
  draws := 0
  trace := []
  slot := none

end Sys2Proof.Machine
end

