-- ==== Sys2Proof/Machine/Operands.lean ====
section
/-! DEFINITION. Operand assembly (30_encoding R112), field extraction (R105, R106), the fixed constants of 00_scope R11, and
the check of the parameters (20_memory R72, 42_sensor_protocol R226). -/
namespace Sys2Proof.Machine

/-- `RETRY_MAX`: 5 attempts in total (R11, 41_transport R187). -/
def retryMax : BitVec 3 := 5

/-- `PTR_RESULT` (20_memory R77). -/
def ptrResult : Byte := 0x00

/-- `PTR_CONFIG` (20_memory R77). -/
def ptrConfig : Byte := 0x01

/-- `PTR_LOWLIMIT` (20_memory R77). -/
def ptrLowLimit : Byte := 0x02

/-- `LATCH_MASK`: bit 4 of the configuration word (42_sensor_protocol R222). -/
def latchMask : Half := 0x0010

/-- Put the low bits of `v`, least significant first, at the listed positions, and 0 at every other bit (20_memory R73). -/
def placeBits : List Nat → Nat → Word
  | [], _ => 0
  | p :: ps, v => (if v % 2 = 1 then 1#32 <<< p else 0) ||| placeBits ps (v / 2)

/-- The field whose bits stand at the listed positions, least significant first; other bits are ignored (20_memory R73). -/
def extractBits : List Nat → Word → Nat
  | [], _ => 0
  | p :: ps, w => (w.getLsbD p).toNat + 2 * extractBits ps w

/-- `place(ADDR_SA, {a[6:0], d})` (R112, R104). -/
def addrWord (l : BusRegLayout) (a : BitVec 7) (d : Dir) : Word :=
  placeBits (l.saDir :: l.saAddr) ((a ++ dirBit d).toNat)

/-- `place(ADDR_DR, b[7:0])` (R112, R104). -/
def dataWord (l : BusRegLayout) (b : Byte) : Word := placeBits l.dataByte b.toNat

/-- `place(ADDR_CTL, c[3:0])` with `c` = {ACK, STOP, START, RUN} (R102, R112, R104). -/
def ctlWord (l : BusRegLayout) (c : BitVec 4) : Word :=
  placeBits [l.ctlRun, l.ctlStart, l.ctlStop, l.ctlAck] c.toNat

/-- The logical status in a word read at `ADDR_STATUS` (R105, 40_port_and_bus_commands R141). -/
def statusOf (l : BusRegLayout) (w : Word) : PortStatus where
  busy := w.getLsbD l.stBusy
  adrNack := w.getLsbD l.stAdrNack
  dataNack := w.getLsbD l.stDataNack
  busErr := w.getLsbD l.stBusErr

/-- The byte in a word read at `ADDR_DR` (R106, 40_port_and_bus_commands R145). -/
def byteOf (l : BusRegLayout) (w : Word) : Byte := BitVec.ofNat 8 (extractBits l.dataByte w)

/-- `(w & PIN_MASK) != 0` (40_port_and_bus_commands R146). -/
def pinOf (mask w : Word) : Bool := w &&& mask != 0

/-- The bus command word `{D, CTL[3:0]}` (R107). -/
def bcwOf (d : Dir) (c : BitVec 4) : BitVec 5 := dirBit d ++ c

/-- One of the seven bus command words of R107's table. -/
def isBcw (v : BitVec 5) : Bool :=
  match decodeBcw v with
  | .ok _ => true
  | .error _ => false

/-- `w[15:8]` (R112). -/
def hiByte (w : Half) : Byte := w.extractLsb' 8 8

/-- `w[7:0]` (R112). -/
def loByte (w : Half) : Byte := w.extractLsb' 0 8

/-- `TX[i]` (00_scope R15, 10_state R39): there is no TX[3]. -/
def txAt (r : Scratch) (i : BitVec 2) : Option Byte :=
  match i with
  | 0#2 => some r.tx0
  | 1#2 => some r.tx1
  | 2#2 => some r.tx2
  | _ => none

/-- The raw value of a receive, `{RB0, RB1}`: the first byte is the most significant (R112, 41_transport R186). -/
def received (r : Scratch) : Half := r.rb0 ++ r.rb1

/-- `exponent = raw[15:12]` (R109). -/
def exponentOf (raw : Half) : BitVec 4 := raw.extractLsb' 12 4

/-- `mantissa = raw[11:0]` (R109). -/
def mantissaOf (raw : Half) : BitVec 12 := raw.extractLsb' 0 12

/-- `zext_27(m) << e` (42_sensor_protocol R220). -/
def magnitude (raw : Half) : BitVec 27 := (mantissaOf raw).setWidth 27 <<< (exponentOf raw).toNat

/-- `CFG & ~LATCH_MASK` (42_sensor_protocol R223). -/
def latchCleared (c : Half) : Half := c &&& ~~~latchMask

/-- `CFG | LATCH_MASK` (42_sensor_protocol R224). -/
def latchSet (c : Half) : Half := c ||| latchMask

/-- An address the port may be given: a multiple of 4 (20_memory R72). -/
def aligned (a : Word) : Bool := a.extractLsb' 0 2 == 0#2

/-- Each position is a bit of a 32-bit word and no two are the same. -/
def distinctBits (ps : List Nat) : Bool := ps.all (· < 32) && decide ps.Nodup

/-- `BusRegLayout` gives every logical bit of a word a place of its own in it (R112). -/
def layoutOk (l : BusRegLayout) : Bool :=
  l.saAddr.length == 7 && l.dataByte.length == 8 &&
  distinctBits (l.saDir :: l.saAddr) && distinctBits l.dataByte &&
  distinctBits [l.ctlRun, l.ctlStart, l.ctlStop, l.ctlAck] &&
  distinctBits [l.stBusy, l.stAdrNack, l.stDataNack, l.stBusErr]

/-- Exactly one bit is set (20_memory R70: `PIN_MASK` is one bit set). -/
def oneBit (m : Word) : Bool := m != 0 && m &&& (m - 1) == 0

/-- The reason the model refuses a configuration, if there is one (93 U15, U16; log entry 19). -/
def paramsRefusal (c : Params) : Option Refusal :=
  if !(aligned c.addrSA && aligned c.addrStatus && aligned c.addrCtl && aligned c.addrDR && aligned c.pinAddr) then
    some .misalignedAddress
  else if c.configWord &&& latchMask != latchMask then some .configWithoutLatch
  else if !oneBit c.pinMask then some .pinMaskNotOneBit
  else if !layoutOk c.layout then some .layoutInvalid
  else none

end Sys2Proof.Machine
end

