-- ==== Sys2Proof/Machine/Flags.lean ====
section
/-! DEFINITION. Every flag computation of the spec: the error indicator (10_state R40), the fields of CORE_STATUS (R46 to R51) and
what the host reads. -/
namespace Sys2Proof.Machine

/-- `E <- {BUS_ERR, DATA_NACK, ADR_NACK}` (41_transport R181). -/
def errorBits (st : PortStatus) : BitVec 3 :=
  BitVec.ofBool st.busErr ++ BitVec.ofBool st.dataNack ++ BitVec.ofBool st.adrNack

/-- The send abort test `E != 0` (41_transport R182). -/
def sendAborts (e : BitVec 3) : Bool := e != 0

/-- The receive retry test: `E[0] | E[2]` is 1 (41_transport R186). A data-not-acknowledge alone is no cause for retry. -/
def receiveRetries (e : BitVec 3) : Bool := e.getLsbD 0 || e.getLsbD 2

/-- END_PRIMITIVE's writes to CORE_STATUS (41_transport R188). -/
def endPrimitiveFlags (e : BitVec 3) (x : Bool) (f : Stat) : Stat :=
  { f with lastErr := e, accErr := f.accErr ||| e, anyExh := f.anyExh || x }

/-- The fields an accepted command writes (43_acquisition R260). The sticky fields stay. -/
def acceptFlags (f : Stat) : Stat :=
  { f with
    coreBusy := true
    respValid := false
    respReady := false
    lastErr := 0
    accErr := 0
    resExh := false
    anyExh := false }

/-- The fields a completed command writes (43_acquisition R265). -/
def completeFlags (ready : Bool) (f : Stat) : Stat :=
  { f with respReady := ready, respValid := true, coreBusy := false }

/-- A command that arrives while CORE is busy (43_acquisition R260). -/
def overrunFlags (f : Stat) : Stat := { f with cmdOverrun := true }

/-- A command with the reserved op code 0b00 (43_acquisition R260). -/
def illegalFlags (f : Stat) : Stat := { f with cmdIllegal := true }

/-- The encoding of `ACQ` (R36). -/
def acqBits : Acq → BitVec 2
  | .idle => 0b00
  | .measuring => 0b01
  | .ready => 0b10

/-- `CORE_STATUS` as the host reads it (R46). -/
def statusWord (a : Acq) (f : Stat) : Word :=
  0#17 ++ BitVec.ofBool f.cmdIllegal ++ BitVec.ofBool f.cmdOverrun ++ BitVec.ofBool f.anyExh ++ BitVec.ofBool f.resExh ++
    f.accErr ++ f.lastErr ++ BitVec.ofBool f.respReady ++ BitVec.ofBool f.respValid ++ BitVec.ofBool f.coreBusy ++ acqBits a

/-- The host's read of `CORE_STATUS`: no side effect (R46). -/
def coreStatus (s : State) : Word := statusWord s.acq s.stat

/-- The host's read of `RESULT` (R45). -/
def resultRead (s : State) : Word := s.result

/-- The host's read of `RAW`, zero-extended (R43). -/
def rawRead (s : State) : Word := s.raw.setWidth 32

/-- The sample `P` says busy (10_state R55, 40_port_and_bus_commands R146). -/
def pinBusy (s : State) : Bool := s.scr.p == s.cfg.busyLevel

end Sys2Proof.Machine
end

