-- ==== Sys2Proof/Machine/Ops.lean ====
section
/-! DEFINITION. The named operations over the state: one update a field, the interface primitives of 00_scope R16, END_PRIMITIVE
(41_transport R188, the nearest thing CORE has to taking an exception, 60_exceptions R307) and the reset event (70 R340). -/
namespace Sys2Proof.Machine

def State.setAcq (s : State) (a : Acq) : State := { s with acq := a }

def State.setPos (s : State) (p : Pos) : State := { s with pos := p }

def State.setScr (s : State) (r : Scratch) : State := { s with scr := r }

def State.setStat (s : State) (f : Stat) : State := { s with stat := f }

/-- Publish a reading: `RAW` and `RESULT` are written together (10_state R43, R45). -/
def State.setReading (s : State) (raw : Half) (result : Word) : State := { s with raw := raw, result := result }

def State.setSt (s : State) (v : PortStatus) : State := { s with st := v }

def State.setRd (s : State) (v : Byte) : State := { s with rd := v }

def State.setPort (s : State) (v : BusPort) : State := { s with port := v }

def State.setHostIn (s : State) (v : List HostMove) : State := { s with hostIn := v }

def State.setSlot (s : State) (v : Option RawOp) : State := { s with slot := v }

def State.setOracle (s : State) (answers : List Word) (draws : Nat) : State := { s with answers := answers, draws := draws }

/-- Record one interface event (R16, R81). -/
def State.record (s : State) (e : Event) : State := { s with trace := e :: s.trace }

/-- Move the transport level of the position to a label, or off it (R33). -/
def State.atTrans (s : State) (l : Option TransLabel) : State := s.setPos { s.pos with trans := l }

/-- Move the protocol level of the position (R33). -/
def State.atProto (s : State) (l : Option ProtoLabel) : State := s.setPos { s.pos with proto := l }

/-- Move the host level of the position (R33). -/
def State.atHost (s : State) (l : Option HostLabel) : State := s.setPos { s.pos with host := l }

/-- Move the fourth level of the position (R33, R34). -/
def State.atLeaf (s : State) (l : Option LeafLabel) : State := s.setPos { s.pos with leaf := l }

/-- The oracle's next answer: any 32-bit word (R16, R140; log entry 6). -/
def nextAnswer (s : State) : Word :=
  match s.answers with
  | w :: _ => w
  | [] => Config.freeWord s.draws

/-- The state once that answer is consumed. -/
def afterDraw (s : State) : State := s.setOracle s.answers.tail (s.draws + 1)

/-- `MemRead(addr, 4)`: one event, answered by the oracle (R16). The word read is `nextAnswer s`. -/
def memRead (c : ReadChan) (addr : Word) (s : State) : State := (afterDraw s).record (.read c addr (nextAnswer s))

/-- `MemWrite(addr, 4, w)` to a field that launches nothing (R16, R75). -/
def memWrite (c : WriteChan) (addr w : Word) (s : State) : State := s.record (.write c addr w)

/-- END_PRIMITIVE (41_transport R188). It performs no interface event. -/
def endPrimitive (s : State) : State := s.setStat (endPrimitiveFlags s.scr.e s.scr.x s.stat)

/-- Scratch registers of unspecified content (70 R340, 93 U10): free values (log entry 5). -/
def freeScratch (k : Nat) : Scratch where
  tx0 := (Config.freeWord k).setWidth 8
  tx1 := (Config.freeWord (k + 1)).setWidth 8
  tx2 := (Config.freeWord (k + 2)).setWidth 8
  n := (Config.freeWord (k + 3)).setWidth 2
  i := (Config.freeWord (k + 4)).setWidth 2
  att := (Config.freeWord (k + 5)).setWidth 3
  rb0 := (Config.freeWord (k + 6)).setWidth 8
  rb1 := (Config.freeWord (k + 7)).setWidth 8
  e := (Config.freeWord (k + 8)).setWidth 3
  x := (Config.freeWord (k + 9)).getLsbD 0
  cfgWord := (Config.freeWord (k + 10)).setWidth 16
  rr := (Config.freeWord (k + 11)).setWidth 16
  mag := (Config.freeWord (k + 12)).setWidth 27
  p := (Config.freeWord (k + 13)).getLsbD 0

/-- RESET (70 R340, R342, R343): `ACQ`, the position, CORE_STATUS, RESULT and RAW take their reset values, the scratch
registers become free values, and nothing outside CORE changes. -/
def resetEvent (s : State) : State :=
  { s with
    acq := .idle
    pos := Pos.rest
    scr := freeScratch s.draws
    stat := Stat.zero
    raw := 0
    result := 0
    st := statusOf s.cfg.layout (Config.freeWord (s.draws + 14))
    rd := (Config.freeWord (s.draws + 15)).setWidth 8
    draws := s.draws + 16 }

end Sys2Proof.Machine
end

