-- ==== Sys2Proof/Machine/Port.lean ====
section
/-! DEFINITION. The register-port micro-operations (40_port_and_bus_commands R140 to R146) and the seven bus command words (R150 to
R157). None writes a field of CORE_STATUS, and none depends on `ACQ` (R140). -/
namespace Sys2Proof.Machine

/-- RD_STATUS (R141): one read of the status field; the logical status is returned in `st`. -/
def rdStatus (s : State) : State :=
  (memRead .status s.cfg.addrStatus s).setSt (statusOf s.cfg.layout (nextAnswer s))

/-- WR_ADDR(a, d) (R142): set the address+direction field for the next launch. -/
def wrAddr (a : BitVec 7) (d : Dir) (s : State) : State :=
  (memWrite .addr s.cfg.addrSA (addrWord s.cfg.layout a d) s).setPort { s.port with addr := a, dir := d }

/-- WR_DATA(b) (R143): set the data field for the next launch. -/
def wrData (b : Byte) (s : State) : State :=
  (memWrite .data s.cfg.addrDR (dataWord s.cfg.layout b) s).setPort { s.port with byte := b }

/-- The control write of WR_CTL(c) (R144), which launches the phase its bus command word requests (R75, R82, R107). -/
def launch (c : BitVec 4) (s : State) : State :=
  s.record (.launch s.cfg.addrCtl (ctlWord s.cfg.layout c) (bcwOf s.port.dir c) s.port.addr s.port.byte)

/-- RD_DATA (R145): one read of the data field; the byte is returned in `rd`. -/
def rdData (s : State) : State :=
  (memRead .data s.cfg.addrDR s).setRd (byteOf s.cfg.layout (nextAnswer s))

/-- RD_PIN (R146): one sample of the busy pin, stored in `P`. -/
def rdPin (s : State) : State :=
  (memRead .pin s.cfg.pinAddr s).setScr { s.scr with p := pinOf s.cfg.pinMask (nextAnswer s) }

/-- A control write whose word, with the direction last written, must be one of the seven (R144, R107). -/
def issueControl (c : BitVec 4) (s : State) : Host.Outcome State Fault Refusal :=
  if isBcw (bcwOf s.port.dir c) then .next (launch c s) else .refused .reservedBcw

/-- A bus command word: WR_CTL of its control half, in its own direction (R150 to R157). -/
def issueBcw (d : Dir) (c : BitVec 4) (s : State) : Host.Outcome State Fault Refusal :=
  if s.port.dir = d then issueControl c s else .refused .bcwDirection

def execRdStatus (s : State) : Host.Outcome State Fault Refusal := .next (rdStatus s)

def execWrAddr (a : BitVec 7) (d : Dir) (s : State) : Host.Outcome State Fault Refusal := .next (wrAddr a d s)

def execWrData (b : Byte) (s : State) : Host.Outcome State Fault Refusal := .next (wrData b s)

def execWrCtl (c : BitVec 4) (s : State) : Host.Outcome State Fault Refusal := issueControl c s

def execRdData (s : State) : Host.Outcome State Fault Refusal := .next (rdData s)

def execRdPin (s : State) : Host.Outcome State Fault Refusal := .next (rdPin s)

/-- SEND_SINGLE (R151): start, address, the only byte, stop. -/
def execSendSingle (s : State) : Host.Outcome State Fault Refusal := issueBcw .send 0b0111 s

/-- SEND_START (R152): start, address, the first byte. -/
def execSendStart (s : State) : Host.Outcome State Fault Refusal := issueBcw .send 0b0011 s

/-- SEND_CONT (R153): one more byte, no start and no stop. -/
def execSendCont (s : State) : Host.Outcome State Fault Refusal := issueBcw .send 0b0001 s

/-- SEND_FINISH (R154): the last byte, then a stop. -/
def execSendFinish (s : State) : Host.Outcome State Fault Refusal := issueBcw .send 0b0101 s

/-- SEND_ERR_STOP (R155): a stop at once, with no byte. -/
def execSendErrStop (s : State) : Host.Outcome State Fault Refusal := issueBcw .send 0b0100 s

/-- RECV_START_ACK (R156): start, address, one received byte, acknowledged. -/
def execRecvStartAck (s : State) : Host.Outcome State Fault Refusal := issueBcw .recv 0b1011 s

/-- RECV_FINISH (R157): one received byte, not acknowledged, then a stop. -/
def execRecvFinish (s : State) : Host.Outcome State Fault Refusal := issueBcw .recv 0b0101 s

end Sys2Proof.Machine
end

