-- ==== Sys2Proof/Machine/Transport.lean ====
section
/-! DEFINITION. The transport operations (41_transport R180 to R186). WAIT_IDLE is one pass of its loop a step, so that the
unbounded wait is an unbounded run (R306). A primitive's meaning loads its operands and enters its sequence at the first
label; Machine/Sequencer.lean carries the sequence on, one interface event a step (log entry 17). -/
namespace Sys2Proof.Machine

/-- One pass of WAIT_IDLE's loop (R180): read the status, and stay in the loop while BUSY is 1. -/
def waitIdlePass (s : State) : State :=
  (rdStatus s).atLeaf (if (rdStatus s).st.busy then some .waitIdle else none)

/-- ERR_SAMPLE (R181): a status read of its own, whose three error fields become `E` whatever its BUSY says. -/
def errSample (s : State) : State :=
  (rdStatus s).setScr { s.scr with e := errorBits (rdStatus s).st }

/-- Enter SEND(n) (R182) at S_W0. -/
def enterSend (s : State) : State := s.atTrans (some .sW0)

/-- Operand load of a one-byte send (R183). -/
def loadSend1 (b0 : Byte) (s : State) : State := s.setScr { s.scr with tx0 := b0, n := 1 }

/-- Operand load of a two-byte send (R184). -/
def loadSend2 (b0 b1 : Byte) (s : State) : State := s.setScr { s.scr with tx0 := b0, tx1 := b1, n := 2 }

/-- Operand load of a three-byte send (R185). -/
def loadSend3 (b0 b1 b2 : Byte) (s : State) : State :=
  s.setScr { s.scr with tx0 := b0, tx1 := b1, tx2 := b2, n := 3 }

/-- The call of SEND3 by the protocol layer: pointer, then the word, most significant byte first (30_encoding R108). -/
def callSendWord (ptr : Byte) (w : Half) (s : State) : State := enterSend (loadSend3 ptr (hiByte w) (loByte w) s)

/-- Enter RECV2 (R186): `ATT <- 0`, then the loop's first `ATT <- ATT + 1`, at R_W0. -/
def enterRecv2 (s : State) : State := (s.setScr { s.scr with att := 1 }).atTrans (some .rW0)

def execWaitIdle (s : State) : Host.Outcome State Fault Refusal := .next (waitIdlePass s)

def execErrSample (s : State) : Host.Outcome State Fault Refusal := .next (errSample s)

def execSend1 (b0 : Byte) (s : State) : Host.Outcome State Fault Refusal := .next (enterSend (loadSend1 b0 s))

def execSend2 (b0 b1 : Byte) (s : State) : Host.Outcome State Fault Refusal := .next (enterSend (loadSend2 b0 b1 s))

def execSend3 (b0 b1 b2 : Byte) (s : State) : Host.Outcome State Fault Refusal :=
  .next (enterSend (loadSend3 b0 b1 b2 s))

def execRecv2 (s : State) : Host.Outcome State Fault Refusal := .next (enterRecv2 s)

end Sys2Proof.Machine
end

