-- ==== Sys2Proof/Machine/Protocol.lean ====
section
/-! DEFINITION. The sensor-protocol operations (42_sensor_protocol R220 to R228). BEGIN_CONV and READ_RESULT enter their sequences at
the first label; Machine/Sequencer.lean carries them on (log entry 17). -/
namespace Sys2Proof.Machine

/-- DECODE (R220): `MAG` is the magnitude of `RR`. No interface event. -/
def execDecode (s : State) : Host.Outcome State Fault Refusal :=
  .next (s.setScr { s.scr with mag := magnitude s.scr.rr })

/-- CFG_LATCH_CLR (R223): SEND3 of the configuration word with the latch bit cleared. -/
def execCfgLatchClr (s : State) : Host.Outcome State Fault Refusal :=
  .next (callSendWord ptrConfig (latchCleared s.scr.cfgWord) s)

/-- CFG_LATCH_SET (R224): SEND3 of the configuration word with the latch bit set. -/
def execCfgLatchSet (s : State) : Host.Outcome State Fault Refusal :=
  .next (callSendWord ptrConfig (latchSet s.scr.cfgWord) s)

/-- BEGIN_CONV (R225): enter at B_LL. -/
def execBeginConv (s : State) : Host.Outcome State Fault Refusal := .next (s.atProto (some .bLL))

/-- READ_RESULT (R228): enter at T_P0. -/
def execReadResult (s : State) : Host.Outcome State Fault Refusal := .next (s.atProto (some .tP0))

end Sys2Proof.Machine
end

