-- ==== Sys2Proof/Machine/Acquisition.lean ====
section
/-! DEFINITION. The acquisition state machine: command acceptance and completion (43_acquisition R260, R265), the host commands
(R261 to R263) and WAIT_DONE (R264). -/
namespace Sys2Proof.Machine

/-- An accepted command: the fields of R260, and `CUR_OP`. -/
def accept (op : HostOp) (s : State) : State :=
  (s.setStat (acceptFlags s.stat)).setPos { s.pos with curOp := some op }

/-- A command event while CORE_BUSY = 1: ignored, and CMD_OVERRUN is set (R260). -/
def overrun (s : State) : State := s.setStat (overrunFlags s.stat)

/-- A command event with the reserved op code 0b00 (R260): busy is tested first (60_exceptions R305). -/
def reservedCommand (s : State) : State :=
  if s.stat.coreBusy then overrun s else s.setStat (illegalFlags s.stat)

/-- The head of START (R261): a conversion from Idle, otherwise completion at once. -/
def beginStart (s : State) : State :=
  match s.acq with
  | .idle => s.atHost (some .begin)
  | .measuring => s.atHost (some (.complete false))
  | .ready => s.atHost (some (.complete false))

/-- The head of POLL_END (R262). -/
def beginPollEnd (s : State) : State :=
  match s.acq with
  | .idle => s.atHost (some .begin)
  | .measuring => s.atHost (some .pin)
  | .ready => s.atHost (some .read)

/-- The head of BLOCKING_READ (R263): Idle is forced from any state. -/
def beginBlockingRead (s : State) : State := (s.setAcq .idle).atHost (some .begin)

/-- COMPLETE(ready) (R265): the last step of every accepted command, with its response event. -/
def complete (ready : Bool) (s : State) : State :=
  ((s.setStat (completeFlags ready s.stat)).setPos { s.pos with curOp := none, host := none }).record
    (.resp ready s.result s.raw)

/-- One pass of WAIT_DONE's loop (R264): sample the pin, and stay in the loop while it says busy. -/
def waitDonePass (s : State) : State :=
  (rdPin s).atLeaf (if pinBusy (rdPin s) then some .waitDone else none)

def execWaitDone (s : State) : Host.Outcome State Fault Refusal := .next (waitDonePass s)

/-- The command event START (R260, R261). -/
def execStart (s : State) : Host.Outcome State Fault Refusal :=
  .next (if s.stat.coreBusy then overrun s else beginStart (accept .start s))

/-- The command event POLL_END (R260, R262). -/
def execPollEnd (s : State) : Host.Outcome State Fault Refusal :=
  .next (if s.stat.coreBusy then overrun s else beginPollEnd (accept .pollEnd s))

/-- The command event BLOCKING_READ (R260, R263). -/
def execBlockingRead (s : State) : Host.Outcome State Fault Refusal :=
  .next (if s.stat.coreBusy then overrun s else beginBlockingRead (accept .blockingRead s))

end Sys2Proof.Machine
end

