-- ==== Sys2Proof/Machine/Sequencer.lean ====
section
/-! DEFINITION. The sequencer position at work (10_state R33, R34): which operation the label reached performs, and where the
position goes when that operation is done. The innermost level that holds a label is the one that performs
(log entry 17). -/
namespace Sys2Proof.Machine

/-- What the position asks for next. -/
inductive Pick where
  /-- perform this operation on this state -/
  | op (i : Instr) (s : State)
  /-- `COMPLETE(ready)`, which is no row of the table (43_acquisition R265) -/
  | complete (ready : Bool)
  /-- no command in progress: no event (R33) -/
  | idle
  | fault (f : Fault)
  | refuse (r : Refusal)

/-- The operation at a label of SEND(n) or RECV2 (41_transport R182, R186). -/
def transPick (l : TransLabel) (s : State) : Pick :=
  match l with
  | .sW0 => .op .waitIdle s
  | .sSA => .op (.wrAddr s.cfg.devAddr .send) s
  | .sD0 => .op (.wrData s.scr.tx0) s
  | .sC0 => .op (if s.scr.n = 1 then .sendSingle else .sendStart) s
  | .sW1 => .op .waitIdle s
  | .sE => .op .errSample s
  | .sAB => .op .sendErrStop s
  | .sD =>
    match txAt s.scr s.scr.i with
    | some b => .op (.wrData b) s
    | none => .fault .txIndex
  | .sC => .op (if s.scr.i = s.scr.n - 1 then .sendFinish else .sendCont) s
  | .sW => .op .waitIdle s
  | .sEF => .op .errSample s
  | .rW0 => .op .waitIdle s
  | .rSA => .op (.wrAddr s.cfg.devAddr .recv) s
  | .rC0 => .op .recvStartAck s
  | .rW1 => .op .waitIdle s
  | .rB0 => .op .rdData s
  | .rC1 => .op .recvFinish s
  | .rW2 => .op .waitIdle s
  | .rB1 => .op .rdData s
  | .rE => .op .errSample s

/-- The operation at a label of BEGIN_CONV or READ_RESULT (42_sensor_protocol R225, R228). -/
def protoOp (l : ProtoLabel) (s : State) : Instr :=
  match l with
  | .bLL => .send3 ptrLowLimit (hiByte s.cfg.lowLimitWord) (loByte s.cfg.lowLimitWord)
  | .bCF => .send3 ptrConfig (hiByte s.cfg.configWord) (loByte s.cfg.configWord)
  | .bCLR => .recv2
  | .tP0 => .send1 ptrResult
  | .tR0 => .recv2
  | .tDEC => .decode
  | .tP1 => .send1 ptrConfig
  | .tR1 => .recv2
  | .tLC => .cfgLatchClr
  | .tLS => .cfgLatchSet

/-- The operation at a label of a host command (43_acquisition R261 to R265). -/
def hostPick (l : HostLabel) (s : State) : Pick :=
  match l with
  | .begin => .op .beginConv s
  | .pin => .op .rdPin s
  | .wait => .op .waitDone s
  | .read => .op .readResult s
  | .complete r => .complete r

/-- The operation in the slot, decoded (log entry 11). -/
def slotPick (s : State) : Pick :=
  match s.slot with
  | none => .idle
  | some r =>
    match decode r.fmt r.bytes with
    | .ok (i, _) => .op i (s.setSlot none)
    | .error e => .refuse (.badEncoding e)

/-- What the sequencer performs next: a spin that goes on, else the innermost level with a label, else the slot. -/
def pick (s : State) : Pick :=
  match s.pos.leaf with
  | some .waitIdle => .op .waitIdle s
  | some .waitDone => .op .waitDone s
  | none =>
    match s.pos.trans with
    | some l => transPick l s
    | none =>
      match s.pos.proto with
      | some l => .op (protoOp l s) s
      | none =>
        match s.pos.host with
        | some l => hostPick l s
        | none => slotPick s

/-- The operation at a host label is done (43_acquisition R261 to R263). -/
def advanceHost (l : HostLabel) (s : State) : State :=
  match l with
  | .begin =>
    (s.setAcq .measuring).atHost (some (if s.pos.curOp = some .blockingRead then .wait else .complete false))
  | .pin => s.atHost (some (if pinBusy s then .complete false else .read))
  | .wait => s.atHost (some .read)
  | .read => (s.setAcq .idle).atHost (some (.complete true))
  | .complete _ => s

/-- A protocol operation, or a lone operation, has ended: go on in the host command that called it. -/
def returnToHost (s : State) : State :=
  match s.pos.host with
  | some l => advanceHost l s
  | none => s

/-- The end of RECV2 at T_R0 (42_sensor_protocol R228): `RR <- r`, and RES_EXH when the receive exhausted. -/
def takeResult (s : State) : State :=
  (s.setScr { s.scr with rr := received s.scr }).setStat { s.stat with resExh := s.stat.resExh || s.scr.x }

/-- The end of RECV2 at T_R1 (R228): `CFG <- c`. -/
def takeConfig (s : State) : State := s.setScr { s.scr with cfgWord := received s.scr }

/-- T_PUB (R228): `RAW <- RR`, `RESULT <- zext_32(MAG)`. -/
def publish (s : State) : State := s.setReading s.scr.rr (s.scr.mag.setWidth 32)

/-- The operation at a protocol label is done (R225, R228). No error changes the order (R227). -/
def advanceProto (l : ProtoLabel) (s : State) : State :=
  match l with
  | .bLL => s.atProto (some .bCF)
  | .bCF => s.atProto (some .bCLR)
  | .bCLR => returnToHost (s.atProto none)
  | .tP0 => s.atProto (some .tR0)
  | .tR0 => (takeResult s).atProto (some .tDEC)
  | .tDEC => s.atProto (some .tP1)
  | .tP1 => s.atProto (some .tR1)
  | .tR1 => (takeConfig s).atProto (some .tLC)
  | .tLC => s.atProto (some .tLS)
  | .tLS => returnToHost ((publish s).atProto none)

/-- A transport primitive has ended: go on in the protocol operation that called it. -/
def returnToProto (s : State) : State :=
  match s.pos.proto with
  | some l => advanceProto l s
  | none => s

/-- The end of a primitive with `X` known: END_PRIMITIVE, then the return (41_transport R182, R186, R188). -/
def endTransport (x : Bool) (s : State) : State :=
  returnToProto ((endPrimitive (s.setScr { s.scr with x := x })).atTrans none)

/-- The head of SEND's loop, `while I < N` (R182). -/
def sendLoop (s : State) : State := s.atTrans (some (if s.scr.i < s.scr.n then .sE else .sEF))

/-- The end of a receive attempt (R186): stop when the sample has neither ADR_NACK nor BUS_ERR, give the sentinel after the
fifth attempt, otherwise try again. -/
def endAttempt (s : State) : State :=
  if receiveRetries s.scr.e then
    if s.scr.att = retryMax then endTransport true (s.setScr { s.scr with rb0 := 0xFF, rb1 := 0xFF })
    else (s.setScr { s.scr with att := s.scr.att + 1 }).atTrans (some .rW0)
  else endTransport false s

/-- The operation at a transport label is done (R182, R186). -/
def advanceTrans (l : TransLabel) (s : State) : State :=
  match l with
  | .sW0 => s.atTrans (some .sSA)
  | .sSA => s.atTrans (some .sD0)
  | .sD0 => s.atTrans (some .sC0)
  | .sC0 => s.atTrans (some .sW1)
  | .sW1 => sendLoop (s.setScr { s.scr with i := 1 })
  | .sE => s.atTrans (some (if sendAborts s.scr.e then .sAB else .sD))
  | .sAB => endTransport false s
  | .sD => s.atTrans (some .sC)
  | .sC => s.atTrans (some .sW)
  | .sW => sendLoop (s.setScr { s.scr with i := s.scr.i + 1 })
  | .sEF => endTransport false s
  | .rW0 => s.atTrans (some .rSA)
  | .rSA => s.atTrans (some .rC0)
  | .rC0 => s.atTrans (some .rW1)
  | .rW1 => s.atTrans (some .rB0)
  | .rB0 => (s.setScr { s.scr with rb0 := s.rd }).atTrans (some .rC1)
  | .rC1 => s.atTrans (some .rW2)
  | .rW2 => s.atTrans (some .rB1)
  | .rB1 => (s.setScr { s.scr with rb1 := s.rd }).atTrans (some .rE)
  | .rE => endAttempt s

/-- Carry the position on after an operation: `before` is the position the operation was picked at, `t` the state after it.
An operation that entered an inner level, or a wait that still spins, is not done. -/
def afterOp (before : Pos) (t : State) : State :=
  match t.pos.leaf with
  | some _ => t
  | none =>
    match before.trans with
    | some l => advanceTrans l t
    | none =>
      match t.pos.trans with
      | some _ => t
      | none =>
        match before.proto with
        | some l => advanceProto l t
        | none =>
          match t.pos.proto with
          | some _ => t
          | none =>
            match before.host with
            | some l => advanceHost l t
            | none => t

/-- A command event's op code as an operation: the HCMD row (30_encoding R110). -/
def commandOp (op : BitVec 2) : Option Instr :=
  match decodeCommand op with
  | .ok i => some i
  | .error _ => none

/-- The outcome of the operation once the position is carried on. -/
def carryOn (before : Pos) (o : Host.Outcome State Fault Refusal) : Host.Outcome State Fault Refusal :=
  match o with
  | .next t => .next (afterOp before t)
  | .fault f => .fault f
  | .refused r => .refused r

/-- Place an encoded operation in the slot of a machine at rest, where the next step fetches it. A bus command word also
needs the direction it stands in (log entry 11). -/
def placeOp (nbits w : Nat) (s : State) : State :=
  let f := tableFormat nbits w
  let bs := tableBytes nbits w
  let dir := match f with
    | .bcw => if (bs.headD 0).getLsbD 4 then Dir.recv else Dir.send
    | _ => s.port.dir
  { s with
    pos := Pos.rest
    hostIn := []
    port := { s.port with dir := dir }
    slot := some ⟨f, bs⟩ }

end Sys2Proof.Machine
end

