-- ==== Sys2Proof/Machine/Dispatch.lean ====
section
/-! DEFINITION. One arm for each operation of the table: a direct call of its meaning. -/
namespace Sys2Proof.Machine

def exec (i : Instr) (s : State) : Host.Outcome State Fault Refusal :=
  match i with
  | .rdStatus => Sys2Proof.Machine.execRdStatus s
  | .wrAddr a d => Sys2Proof.Machine.execWrAddr a d s
  | .wrData b => Sys2Proof.Machine.execWrData b s
  | .wrCtl c => Sys2Proof.Machine.execWrCtl c s
  | .rdData => Sys2Proof.Machine.execRdData s
  | .rdPin => Sys2Proof.Machine.execRdPin s
  | .sendSingle => Sys2Proof.Machine.execSendSingle s
  | .sendStart => Sys2Proof.Machine.execSendStart s
  | .sendCont => Sys2Proof.Machine.execSendCont s
  | .sendFinish => Sys2Proof.Machine.execSendFinish s
  | .sendErrStop => Sys2Proof.Machine.execSendErrStop s
  | .recvStartAck => Sys2Proof.Machine.execRecvStartAck s
  | .recvFinish => Sys2Proof.Machine.execRecvFinish s
  | .waitIdle => Sys2Proof.Machine.execWaitIdle s
  | .errSample => Sys2Proof.Machine.execErrSample s
  | .send1 b0 => Sys2Proof.Machine.execSend1 b0 s
  | .send2 b0 b1 => Sys2Proof.Machine.execSend2 b0 b1 s
  | .send3 b0 b1 b2 => Sys2Proof.Machine.execSend3 b0 b1 b2 s
  | .recv2 => Sys2Proof.Machine.execRecv2 s
  | .decode => Sys2Proof.Machine.execDecode s
  | .cfgLatchClr => Sys2Proof.Machine.execCfgLatchClr s
  | .cfgLatchSet => Sys2Proof.Machine.execCfgLatchSet s
  | .beginConv => Sys2Proof.Machine.execBeginConv s
  | .readResult => Sys2Proof.Machine.execReadResult s
  | .waitDone => Sys2Proof.Machine.execWaitDone s
  | .start => Sys2Proof.Machine.execStart s
  | .pollEnd => Sys2Proof.Machine.execPollEnd s
  | .blockingRead => Sys2Proof.Machine.execBlockingRead s

end Sys2Proof.Machine
end

