-- ==== Sys2Proof/Machine/Boundary.lean ====
section
/-! DEFINITION. What happens at one event boundary: the reset input comes first, then a command event, and otherwise the
sequencer performs the operation its position asks for (10_state R33, 43_acquisition R260, 70 R340; log entries 7, 17). -/
namespace Sys2Proof.Machine

/-- The sequencer's own step. -/
def seqStep (s : State) : Host.Outcome State Fault Refusal :=
  match pick s with
  | .op i t => carryOn s.pos (exec i t)
  | .complete r => .next (complete r s)
  | .idle => .next s
  | .fault f => .fault f
  | .refuse r => .refused r

/-- A command event (43_acquisition R260). -/
def commandStep (op : BitVec 2) (s : State) : Host.Outcome State Fault Refusal :=
  match commandOp op with
  | some i => exec i s
  | none => .next (reservedCommand s)

/-- What happens at this boundary. -/
def boundary (s : State) : Host.Outcome State Fault Refusal :=
  match s.hostIn with
  | .rst :: rest => .next (resetEvent (s.setHostIn rest))
  | .cmd op :: rest => commandStep op (s.setHostIn rest)
  | .quiet :: rest => seqStep (s.setHostIn rest)
  | [] => seqStep s

end Sys2Proof.Machine
end

