-- ==== Sys2Proof/Machine/Step.lean ====
section
/-! DEFINITION. One step of the machine: one event boundary. A configuration the spec refuses has no step (20_memory R72;
log entry 19). -/
namespace Sys2Proof.Machine

def step (s : State) : Host.Outcome State Fault Refusal :=
  match paramsRefusal s.cfg with
  | some r => .refused r
  | none => boundary s

/-- The state with a table word placed where the next step fetches it (log entry 11). -/
def State.withFetchWord (s : State) (nbits w : Nat) : State := placeOp nbits w s

end Sys2Proof.Machine
end

