-- ==== Sys2Proof/Safety.lean ====
section
/-! DEFINITION. The terms claims are made in: runs of several steps, the answers and events of a transport primitive, the
invariants of the machine, and the host's duty (60_exceptions R320). -/
namespace Sys2Proof.Machine

/-- `k` steps of the machine. -/
def runFor (k : Nat) (s : State) : Host.Outcome State Fault Refusal := Host.Core.run Sys2Proof.core k s

/-- The configuration is one the spec gives a meaning (20_memory R72, 42_sensor_protocol R226; log entry 19). -/
def configOk (s : State) : Prop := paramsRefusal s.cfg = none

/-- The machine is at rest: no command, no sequence, nothing in the slot (10_state R57). -/
def atRest (s : State) : Prop := s.pos = Pos.rest ∧ s.slot = none

/-! ### Answers and events -/

/-- A status word that says not busy (41_transport R180). -/
def idleAnswer (c : Params) (w : Word) : Prop := (statusOf c.layout w).busy = false

/-- The error indicator of a status word (41_transport R181). -/
def errorOf (c : Params) (w : Word) : BitVec 3 := errorBits (statusOf c.layout w)

/-- A status word that says not busy and no error. -/
def cleanAnswer (c : Params) (w : Word) : Prop := idleAnswer c w ∧ errorOf c w = 0

/-- The event `RS -> w` (30_encoding R116). -/
def evRS (c : Params) (w : Word) : Event := .read .status c.addrStatus w

/-- The event `WA DEV_ADDR,d`. -/
def evWA (c : Params) (d : Dir) : Event := .write .addr c.addrSA (addrWord c.layout c.devAddr d)

/-- The event `WD b`. -/
def evWD (c : Params) (b : Byte) : Event := .write .data c.addrDR (dataWord c.layout b)

/-- The word a control write of `ctl` = {ACK, STOP, START, RUN} puts on the interface: RUN is the least significant bit of
`ctl`, and each of the four stands at its own place of the layout (30_encoding R102, R104, R112). -/
def controlWord (c : Params) (ctl : BitVec 4) : Word :=
  placeBits [c.layout.ctlRun, c.layout.ctlStart, c.layout.ctlStop, c.layout.ctlAck] ctl.toNat

/-- The event `WC` of a control word in direction `d`, at the sensor's address, with data byte `b` in effect. -/
def evWC (c : Params) (d : Dir) (ctl : BitVec 4) (b : Byte) : Event :=
  .launch c.addrCtl (controlWord c ctl) (dirBit d ++ ctl) c.devAddr b

/-- The event `RD` of the data field that returned the word `w`. -/
def evRD (c : Params) (w : Word) : Event := .read .data c.addrDR w

/-- The event `RP` of the pin that returned the word `w`. -/
def evRP (c : Params) (w : Word) : Event := .read .pin c.pinAddr w

/-- The six answers one receive attempt consumes, each wait ending at its first read (41_transport R186). -/
structure Attempt where
  w0 : Word
  w1 : Word
  d0 : Word
  w2 : Word
  d1 : Word
  we : Word
  deriving DecidableEq, Repr

/-- The answers of an attempt in the order they are consumed. -/
def Attempt.answers (a : Attempt) : List Word := [a.w0, a.w1, a.d0, a.w2, a.d1, a.we]

/-- The three waits of an attempt end at their first read. -/
def Attempt.idle (c : Params) (a : Attempt) : Prop := idleAnswer c a.w0 ∧ idleAnswer c a.w1 ∧ idleAnswer c a.w2

/-- The nine events of an attempt, newest first; `b` is the byte in the data field (R186). -/
def Attempt.events (c : Params) (b : Byte) (a : Attempt) : List Event :=
  [evRS c a.we, evRD c a.d1, evRS c a.w2, evWC c .recv 0b0101 b, evRD c a.d0, evRS c a.w1, evWC c .recv 0b1011 b,
    evWA c .recv, evRS c a.w0]

/-- The raw value an attempt receives: the first byte is the most significant (R186). -/
def Attempt.raw (c : Params) (a : Attempt) : Half := byteOf c.layout a.d0 ++ byteOf c.layout a.d1

/-- The answers of several attempts, in order. -/
def attemptAnswers : List Attempt → List Word
  | [] => []
  | a :: as => a.answers ++ attemptAnswers as

/-- The control word an event launches, if it launches one. -/
def Event.bcw? : Event → Option (BitVec 5)
  | .launch _ _ v _ _ => some v
  | .read _ _ _ => none
  | .write _ _ _ => none
  | .resp _ _ _ => none

/-- The word an event writes to the data field, if it writes one. -/
def Event.dataWrite? : Event → Option Word
  | .write .data _ w => some w
  | .write .addr _ _ => none
  | .read _ _ _ => none
  | .launch _ _ _ _ _ => none
  | .resp _ _ _ => none

/-- The word an event reads from the data field, if it reads one. -/
def Event.dataRead? : Event → Option Word
  | .read .data _ w => some w
  | .read .status _ _ => none
  | .read .pin _ _ => none
  | .write _ _ _ => none
  | .launch _ _ _ _ _ => none
  | .resp _ _ _ => none

/-! ### The table of labels -/

/-- The state at a boundary at which the host does nothing: `u` is `s` once that move is taken (log entry 7). -/
def quietBoundary (s u : State) : Prop :=
  (s.hostIn = [] ∧ u = s) ∨ ∃ rest, s.hostIn = .quiet :: rest ∧ u = { s with hostIn := rest }

/-- Perform `i`, and then `next`; but a wait whose loop has not ended stays at its label (41_transport R180, 43_acquisition
R264). -/
def perform (i : Instr) (next : State → State) (u : State) : Host.Outcome State Fault Refusal :=
  match exec i u with
  | .next t => .next (if t.pos.leaf = none then next t else t)
  | .fault f => .fault f
  | .refused r => .refused r

/-- What follows the operation at a label of a host command (43_acquisition R261 to R263). -/
def hostFollows (t : State) : State :=
  match t.pos.host with
  | none => t
  | some .begin =>
    { t with
      acq := .measuring
      pos := { t.pos with host := some (if t.pos.curOp = some .blockingRead then .wait else .complete false) } }
  | some .pin => { t with pos := { t.pos with host := some (if t.scr.p = t.cfg.busyLevel then .complete false else .read) } }
  | some .wait => { t with pos := { t.pos with host := some .read } }
  | some .read => { t with acq := .idle, pos := { t.pos with host := some (.complete true) } }
  | some (.complete _) => t

/-- What follows the operation at a label of BEGIN_CONV or READ_RESULT (42_sensor_protocol R225, R228): the value it returned
is captured, and the next label, or the calling host command, is next. -/
def protoFollows (t : State) : State :=
  match t.pos.proto with
  | none => t
  | some .bLL => { t with pos := { t.pos with proto := some .bCF } }
  | some .bCF => { t with pos := { t.pos with proto := some .bCLR } }
  | some .bCLR => hostFollows { t with pos := { t.pos with proto := none } }
  | some .tP0 => { t with pos := { t.pos with proto := some .tR0 } }
  | some .tR0 =>
    { t with
      scr := { t.scr with rr := t.scr.rb0 ++ t.scr.rb1 }
      stat := { t.stat with resExh := t.stat.resExh || t.scr.x }
      pos := { t.pos with proto := some .tDEC } }
  | some .tDEC => { t with pos := { t.pos with proto := some .tP1 } }
  | some .tP1 => { t with pos := { t.pos with proto := some .tR1 } }
  | some .tR1 =>
    { t with scr := { t.scr with cfgWord := t.scr.rb0 ++ t.scr.rb1 }, pos := { t.pos with proto := some .tLC } }
  | some .tLC => { t with pos := { t.pos with proto := some .tLS } }
  | some .tLS =>
    hostFollows { t with raw := t.scr.rr, result := t.scr.mag.setWidth 32, pos := { t.pos with proto := none } }

/-- What follows the end of a primitive: `X`, END_PRIMITIVE, and the calling protocol operation (41_transport R182, R186,
R188). -/
def primitiveFollows (x : Bool) (t : State) : State :=
  protoFollows { t with
    scr := { t.scr with x := x }
    stat := { t.stat with lastErr := t.scr.e, accErr := t.stat.accErr ||| t.scr.e, anyExh := t.stat.anyExh || x }
    pos := { t.pos with trans := none } }

/-- What a transport primitive that nothing called leaves unchanged: all but its own registers, the position, the bus-master
fields, the answers and events, and LAST_ERR, ACC_ERR and ANY_EXH (41_transport R183 to R188). -/
def transportFrame (s u : State) : Prop :=
  u.cfg = s.cfg ∧ u.acq = s.acq ∧ u.raw = s.raw ∧ u.result = s.result ∧ u.hostIn = s.hostIn ∧ u.slot = s.slot ∧
  u.pos = { s.pos with trans := none } ∧
  u.scr.cfgWord = s.scr.cfgWord ∧ u.scr.rr = s.scr.rr ∧ u.scr.mag = s.scr.mag ∧ u.scr.p = s.scr.p ∧
  u.stat = { s.stat with lastErr := u.stat.lastErr, accErr := u.stat.accErr, anyExh := u.stat.anyExh }

/-! ### Invariants -/

/-- CORE_BUSY is 1 exactly while a host operation is in progress (10_state R33, R51). -/
def busyMatches (s : State) : Prop :=
  s.stat.coreBusy = s.pos.curOp.isSome ∧ s.pos.curOp.isSome = s.pos.host.isSome

/-- RESP_READY implies RESP_VALID, RESP_VALID implies not CORE_BUSY (R51); LAST_ERR is among ACC_ERR (R47, R48); RES_EXH
implies ANY_EXH (R49). -/
def flagsOrdered (f : Stat) : Prop :=
  (f.respReady = true → f.respValid = true) ∧ (f.respValid = true → f.coreBusy = false) ∧
  f.lastErr &&& f.accErr = f.lastErr ∧ (f.resExh = true → f.anyExh = true)

/-- A wait label of a transport sequence (41_transport R182, R186). -/
def TransLabel.isWait : TransLabel → Bool
  | .sW0 => true
  | .sW1 => true
  | .sW => true
  | .rW0 => true
  | .rW1 => true
  | .rW2 => true
  | _ => false

/-- A spin in progress belongs to the label it stands in, and a transport sequence never runs inside T_DEC (R34). -/
def levelsFit (p : Pos) : Prop :=
  (p.leaf = some .waitIdle → match p.trans with
    | some l => l.isWait = true
    | none => p.proto = none) ∧
  (p.leaf = some .waitDone → p.trans = none ∧ p.proto = none) ∧
  (p.proto = some .tDEC → p.trans = none)

/-- READ_RESULT has decoded: the labels between T_DEC and T_PUB (42_sensor_protocol R228). -/
def ProtoLabel.decoded : ProtoLabel → Bool
  | .tP1 => true
  | .tR1 => true
  | .tLC => true
  | .tLS => true
  | _ => false

/-- RESULT is the decoding of RAW, and once READ_RESULT has decoded, MAG is the decoding of RR (10_state R43, R45; R228). -/
def readingMatches (s : State) : Prop :=
  s.result = (magnitude s.raw).setWidth 32 ∧
  (∀ l, s.pos.proto = some l → l.decoded = true → s.scr.mag = magnitude s.scr.rr)

/-- What holds at a label of a transport sequence: the loop variables are in range, and the direction last written is the
sequence's own once it has been written (10_state R39, R41; 41_transport R182, R186). -/
def transFits (l : TransLabel) (r : Scratch) (d : Dir) : Prop :=
  match l with
  | .sW0 => r.n ≠ 0
  | .sSA => r.n ≠ 0
  | .sD0 => r.n ≠ 0 ∧ d = .send
  | .sC0 => r.n ≠ 0 ∧ d = .send
  | .sW1 => r.n ≠ 0 ∧ d = .send
  | .sE => r.i < r.n ∧ d = .send
  | .sAB => r.i < r.n ∧ d = .send
  | .sD => r.i < r.n ∧ d = .send
  | .sC => r.i < r.n ∧ d = .send
  | .sW => r.i < r.n ∧ d = .send
  | .sEF => d = .send
  | .rW0 => 1 ≤ r.att ∧ r.att ≤ retryMax
  | .rSA => 1 ≤ r.att ∧ r.att ≤ retryMax
  | .rC0 => 1 ≤ r.att ∧ r.att ≤ retryMax ∧ d = .recv
  | .rW1 => 1 ≤ r.att ∧ r.att ≤ retryMax ∧ d = .recv
  | .rB0 => 1 ≤ r.att ∧ r.att ≤ retryMax ∧ d = .recv
  | .rC1 => 1 ≤ r.att ∧ r.att ≤ retryMax ∧ d = .recv
  | .rW2 => 1 ≤ r.att ∧ r.att ≤ retryMax ∧ d = .recv
  | .rB1 => 1 ≤ r.att ∧ r.att ≤ retryMax ∧ d = .recv
  | .rE => 1 ≤ r.att ∧ r.att ≤ retryMax ∧ d = .recv

/-- The machine can go on: the configuration has a meaning, nothing stands in the slot, and the sequence in progress fits its
registers. -/
def canGoOn (s : State) : Prop :=
  configOk s ∧ s.slot = none ∧ levelsFit s.pos ∧ ∀ l, s.pos.trans = some l → transFits l s.scr s.port.dir

/-- The host keeps its duty at this boundary (60_exceptions R320): no command while CORE is busy, and never op code 0b00. -/
def hostDuty (s : State) : Prop :=
  ∀ op rest, s.hostIn = .cmd op :: rest → s.stat.coreBusy = false ∧ op ≠ 0b00#2

end Sys2Proof.Machine
end

