-- ==== Sys2Proof/Certificates/Slice0/Obligations.lean ====
section
/-! DEFINITION. The statements for the provers, from the spec's numbered rules. -/
open Sys2Proof Sys2Proof.Machine

/-! ### Encodings -/

/-- 30_encoding R117: the bytes of an operation decode to it, whatever follows. The operand bytes are the model's choice
(log entry 12). Rests on the spec's own decision D32 (log entry 24). -/
def Obligations.DecodeOfEncodeIsTheOperation : Prop :=
  ∀ (i : Instr) (rest : List Byte), decode (formatOf i) (encode i ++ rest) = .ok (i, rest)

/-- 30_encoding R117: bytes that decode encode again, with the first byte masked to its format. The operand bytes are the
model's choice (log entry 12), and that a decoder ignores the bits above the format's width is its reading of R117 (log
entry 13). Rests on the spec's own decision D32 (log entry 24). -/
def Obligations.DecodedBytesEncodeAgain : Prop :=
  ∀ (f : Format) (v : Byte) (bs : List Byte) (i : Instr) (rest : List Byte), decode f (v :: bs) = .ok (i, rest) →
    formatOf i = f ∧ encode i ++ rest = (v &&& BitVec.ofNat 8 (2 ^ formatWidth f - 1)) :: bs

/-- 30_encoding R113: a value that matches no row of its format is reserved, and is rejected by name. That the bits above
the format's width never make a byte reserved is the model's reading of R117 (log entry 13). Rests on the spec's own
decisions D2, D4 and D32 (log entry 24). -/
def Obligations.ReservedEncodingsAreRejected : Prop :=
  ∀ (v : Byte) (bs : List Byte),
    (decode .bcw (v :: bs) = .error .reservedBcw ↔
      v.setWidth 5 ∉ [0x07#5, 0x03#5, 0x01#5, 0x05#5, 0x04#5, 0x1B#5, 0x15#5]) ∧
    (decode .hcmd (v :: bs) = .error .reservedCommand ↔ v.setWidth 2 = 0b00#2) ∧
    (decode .port (v :: bs) = .error .unusedPortTag ↔ 0b110#3 ≤ v.setWidth 3) ∧
    (decode .seq (v :: bs) = .error .unusedSeqTag ↔ 0xC#4 ≤ v.setWidth 4)

/-- 30_encoding R107, R110, R111: words written out from the tables decode to their operations. The operand bytes of SEND3
and WR_ADDR, to which the tables give no bits, are the model's choice (log entry 12). Rests on the spec's own decisions D2,
D6, D13 and D32 (log entry 24). -/
def Obligations.TableWordsDecode : Prop :=
  decode .bcw [0b00111#8] = .ok (.sendSingle, []) ∧ decode .bcw [0b11011#8] = .ok (.recvStartAck, []) ∧
  decode .hcmd [0b10#8] = .ok (.pollEnd, []) ∧ decode .seq [0x4#8, 0x01#8, 0xCA#8, 0x10#8] = .ok (.send3 0x01 0xCA 0x10, []) ∧
  decode .port [0b001#8, 0x8F#8] = .ok (.wrAddr 0x47 .recv, [])

/-- 20_memory R73: a field placed at distinct positions of the word is read back from the word it was placed in, and every
other bit of that word is 0. Rests on the spec's own decision D26 (log entry 24). -/
def Obligations.PlacedFieldReadsBackAlone : Prop :=
  ∀ (ps : List Nat) (v : Nat), distinctBits ps = true →
    extractBits ps (placeBits ps v) = v % 2 ^ ps.length ∧ ∀ k, k ∉ ps → (placeBits ps v).getLsbD k = false

/-- 10_state R46: every field of CORE_STATUS stands at its bits, and bits [31:15] read 0; R36: ACQ is 0b00 in Idle, 0b01 in
Measuring and 0b10 in Ready. Rests on the spec's own decisions D5 and D21 (log entry 24). -/
def Obligations.CoreStatusFields : Prop :=
  ∀ s : State,
    (s.acq = .idle → (coreStatus s).extractLsb' 0 2 = 0b00#2) ∧
    (s.acq = .measuring → (coreStatus s).extractLsb' 0 2 = 0b01#2) ∧
    (s.acq = .ready → (coreStatus s).extractLsb' 0 2 = 0b10#2) ∧ (coreStatus s).getLsbD 2 = s.stat.coreBusy ∧
    (coreStatus s).getLsbD 3 = s.stat.respValid ∧ (coreStatus s).getLsbD 4 = s.stat.respReady ∧
    (coreStatus s).extractLsb' 5 3 = s.stat.lastErr ∧ (coreStatus s).extractLsb' 8 3 = s.stat.accErr ∧
    (coreStatus s).getLsbD 11 = s.stat.resExh ∧ (coreStatus s).getLsbD 12 = s.stat.anyExh ∧
    (coreStatus s).getLsbD 13 = s.stat.cmdOverrun ∧ (coreStatus s).getLsbD 14 = s.stat.cmdIllegal ∧
    (coreStatus s).extractLsb' 15 17 = 0#17

/-! ### What a step runs -/

/-- 43_acquisition R260: a command event that names an operation runs that operation. Rests on the spec's own decision D2
(log entry 24). -/
def Obligations.StepRunsTheCommandEvent : Prop :=
  ∀ (s : State) (op : BitVec 2) (rest : List HostMove) (i : Instr), configOk s → s.hostIn = .cmd op :: rest →
    decode .hcmd [op.setWidth 8] = .ok (i, []) → step s = exec i { s with hostIn := rest }

/-- 10_state R33: the table of labels. At each label of SEND and RECV2 (41 R182, R186), of BEGIN_CONV and READ_RESULT (42
R225, R228) and of the host commands (43 R261 to R263, R265), a step the host leaves alone performs the operation written
here, and then stands at the label written here; after the last label of a sequence it stands where the caller goes on (R34,
R188). A wait stays at its label until it ends. That the loop tests and captures join the step of the operation before them
is the model's step size (log entry 17), and TX[3] is its fault (log entry 20). Rests on the spec's own decisions D1, D16,
D17, D20, D21, D22, D30 and D35 (log entry 24). -/
def Obligations.StepRunsTheOperationAtThePosition : Prop :=
  ∀ s u : State, configOk s → quietBoundary s u →
    (∀ l, u.pos.trans = some l → (u.pos.leaf = none ∨ u.pos.leaf = some .waitIdle ∧ l.isWait = true) →
      step s = match l with
        | .sW0 => perform .waitIdle (fun t => t.atTrans (some .sSA)) u
        | .sSA => perform (.wrAddr u.cfg.devAddr .send) (fun t => t.atTrans (some .sD0)) u
        | .sD0 => perform (.wrData u.scr.tx0) (fun t => t.atTrans (some .sC0)) u
        | .sC0 => perform (if u.scr.n = 1 then .sendSingle else .sendStart) (fun t => t.atTrans (some .sW1)) u
        | .sW1 => perform .waitIdle (fun t =>
            { t with
              scr := { t.scr with i := 1 }
              pos := { t.pos with trans := some (if 1 < t.scr.n then .sE else .sEF) } }) u
        | .sE => perform .errSample (fun t => t.atTrans (some (if t.scr.e = 0 then .sD else .sAB))) u
        | .sAB => perform .sendErrStop (primitiveFollows false) u
        | .sD =>
          if u.scr.i = 0 then perform (.wrData u.scr.tx0) (fun t => t.atTrans (some .sC)) u
          else if u.scr.i = 1 then perform (.wrData u.scr.tx1) (fun t => t.atTrans (some .sC)) u
          else if u.scr.i = 2 then perform (.wrData u.scr.tx2) (fun t => t.atTrans (some .sC)) u
          else .fault .txIndex
        | .sC => perform (if u.scr.i = u.scr.n - 1 then .sendFinish else .sendCont) (fun t => t.atTrans (some .sW)) u
        | .sW => perform .waitIdle (fun t =>
            { t with
              scr := { t.scr with i := t.scr.i + 1 }
              pos := { t.pos with trans := some (if t.scr.i + 1 < t.scr.n then .sE else .sEF) } }) u
        | .sEF => perform .errSample (primitiveFollows false) u
        | .rW0 => perform .waitIdle (fun t => t.atTrans (some .rSA)) u
        | .rSA => perform (.wrAddr u.cfg.devAddr .recv) (fun t => t.atTrans (some .rC0)) u
        | .rC0 => perform .recvStartAck (fun t => t.atTrans (some .rW1)) u
        | .rW1 => perform .waitIdle (fun t => t.atTrans (some .rB0)) u
        | .rB0 => perform .rdData (fun t =>
            { t with scr := { t.scr with rb0 := t.rd }, pos := { t.pos with trans := some .rC1 } }) u
        | .rC1 => perform .recvFinish (fun t => t.atTrans (some .rW2)) u
        | .rW2 => perform .waitIdle (fun t => t.atTrans (some .rB1)) u
        | .rB1 => perform .rdData (fun t =>
            { t with scr := { t.scr with rb1 := t.rd }, pos := { t.pos with trans := some .rE } }) u
        | .rE => perform .errSample (fun t =>
            if t.scr.e.getLsbD 0 = false ∧ t.scr.e.getLsbD 2 = false then primitiveFollows false t
            else if t.scr.att = 5 then primitiveFollows true { t with scr := { t.scr with rb0 := 0xFF, rb1 := 0xFF } }
            else { t with scr := { t.scr with att := t.scr.att + 1 }, pos := { t.pos with trans := some .rW0 } }) u) ∧
    (∀ l, u.pos.trans = none → u.pos.leaf = none → u.pos.proto = some l →
      step s = match l with
        | .bLL => exec (.send3 0x02 (u.cfg.lowLimitWord.extractLsb' 8 8) (u.cfg.lowLimitWord.extractLsb' 0 8)) u
        | .bCF => exec (.send3 0x01 (u.cfg.configWord.extractLsb' 8 8) (u.cfg.configWord.extractLsb' 0 8)) u
        | .bCLR => exec .recv2 u
        | .tP0 => exec (.send1 0x00) u
        | .tR0 => exec .recv2 u
        | .tDEC => perform .decode protoFollows u
        | .tP1 => exec (.send1 0x01) u
        | .tR1 => exec .recv2 u
        | .tLC => exec .cfgLatchClr u
        | .tLS => exec .cfgLatchSet u) ∧
    (∀ l, u.pos.trans = none → u.pos.proto = none → u.pos.host = some l →
      (u.pos.leaf = none ∨ u.pos.leaf = some .waitDone ∧ l = .wait) →
      step s = match l with
        | .begin => exec .beginConv u
        | .pin => perform .rdPin hostFollows u
        | .wait => perform .waitDone hostFollows u
        | .read => exec .readResult u
        | .complete ready => .next { u with
            stat := { u.stat with respReady := ready, respValid := true, coreBusy := false }
            pos := { u.pos with curOp := none, host := none }
            trace := .resp ready u.result u.raw :: u.trace })

/-- The model's slot (log entry 11): at rest, the step runs exactly the operation whose bytes the slot holds. -/
def Obligations.StepRunsTheFetchedOperation : Prop :=
  ∀ (s : State) (f : Format) (bs rest : List Byte) (i : Instr), configOk s → s.hostIn = [] → s.pos = Pos.rest →
    s.slot = some ⟨f, bs⟩ → decode f bs = .ok (i, rest) → step s = exec i { s with slot := none }

/-- 10_state R33, 60_exceptions R315: with no command in progress CORE performs no event. Rests on the spec's own decision
D1 (log entry 24). -/
def Obligations.IdleMachinePerformsNoEvent : Prop :=
  ∀ s : State, configOk s → atRest s →
    (s.hostIn = [] → step s = .next s) ∧
    (∀ rest, s.hostIn = .quiet :: rest → step s = .next { s with hostIn := rest })

/-- 20_memory R72: a configuration with a misaligned address parameter is refused. Rests on the spec's own decision D26 (log
entry 24). -/
def Obligations.MisalignedAddressIsRefused : Prop :=
  ∀ s : State,
    (s.cfg.addrSA.toNat % 4 ≠ 0 ∨ s.cfg.addrStatus.toNat % 4 ≠ 0 ∨ s.cfg.addrCtl.toNat % 4 ≠ 0 ∨
      s.cfg.addrDR.toNat % 4 ≠ 0 ∨ s.cfg.pinAddr.toNat % 4 ≠ 0) → step s = .refused .misalignedAddress

/-- A step performs at most one interface event, added to those before it, and never changes the configuration. That one
step holds at most one event is the model's step size (log entry 17), seen through its event history and its parameter field
(log entries 8 and 1); the spec's side is that an operation is one event or a sequence of them (00_scope R16, 20_memory R81,
R86). Rests on the spec's own decisions D25 and D28 (log entry 24). -/
def Obligations.StepAddsAtMostOneEvent : Prop :=
  ∀ s t : State, step s = .next t → t.cfg = s.cfg ∧ (t.trace = s.trace ∨ ∃ e, t.trace = e :: s.trace)

/-! ### Reset -/

/-- 70 R340: the state right after reset, as far as the spec gives it. Rests on the spec's own decisions D24 and D36 (log
entry 24). -/
def Obligations.ResetStateOfTheSpec : Prop :=
  State.reset.acq = .idle ∧ State.reset.pos = Pos.rest ∧ coreStatus State.reset = 0x00000000#32 ∧
  State.reset.result = 0x00000000#32 ∧ State.reset.raw = 0x0000#16

/-- 70 R340, R342, R343: RST at any event boundary abandons the command, gives the reset values, and leaves the outside as
it is: no event, no answer consumed, no field of the bus master changed. Rests on the spec's own decisions D24 and D36 (log
entry 24). -/
def Obligations.ResetEventAtAnyBoundary : Prop :=
  ∀ (s : State) (rest : List HostMove), configOk s → s.hostIn = .rst :: rest →
    ∃ t, step s = .next t ∧ t.acq = .idle ∧ t.pos = Pos.rest ∧ coreStatus t = 0x00000000#32 ∧ t.result = 0x00000000#32 ∧
      t.raw = 0x0000#16 ∧ t.trace = s.trace ∧ t.port = s.port ∧ t.answers = s.answers ∧ t.cfg = s.cfg ∧
      t.hostIn = rest ∧ t.slot = s.slot

/-! ### Port micro-operations and bus command words -/

/-- 40 R141: RD_STATUS is one read of the status address; it returns the four logical fields and changes nothing else. Rests
on the spec's own decision D6 (log entry 24). -/
def Obligations.RdStatusReturnsTheLogicalStatus : Prop :=
  ∀ s : State, exec .rdStatus s = .next { s with
    st := ⟨(nextAnswer s).getLsbD s.cfg.layout.stBusy, (nextAnswer s).getLsbD s.cfg.layout.stAdrNack,
      (nextAnswer s).getLsbD s.cfg.layout.stDataNack, (nextAnswer s).getLsbD s.cfg.layout.stBusErr⟩
    answers := s.answers.tail
    draws := s.draws + 1
    trace := .read .status s.cfg.addrStatus (nextAnswer s) :: s.trace }

/-- 40 R142: WR_ADDR(a, d) writes the placed word to ADDR_SA and changes nothing else of CORE; no phase is launched. Rests
on the spec's own decisions D6 and D13 (log entry 24). -/
def Obligations.WrAddrWritesTheAddressField : Prop :=
  ∀ (s : State) (a : BitVec 7) (d : Dir), exec (.wrAddr a d) s = .next { s with
    port := { s.port with addr := a, dir := d }
    trace := .write .addr s.cfg.addrSA (placeBits (s.cfg.layout.saDir :: s.cfg.layout.saAddr) (a ++ dirBit d).toNat) ::
      s.trace }

/-- 40 R143: WR_DATA(b) writes the placed byte to ADDR_DR and changes nothing else of CORE. Rests on the spec's own decision
D6 (log entry 24). -/
def Obligations.WrDataWritesTheDataField : Prop :=
  ∀ (s : State) (b : Byte), exec (.wrData b) s = .next { s with
    port := { s.port with byte := b }
    trace := .write .data s.cfg.addrDR (placeBits s.cfg.layout.dataByte b.toNat) :: s.trace }

/-- 40 R144, 20_memory R82: WR_CTL(c), when `{D, c}` is one of the seven bus command words, writes the control word with
RUN, START, STOP and ACK, the bits of `c` from its least significant one up, each at its place of the layout (30_encoding
R102, R104, R112), and launches that word at the address and with the byte last written; nothing else changes. Any other
control word is refused (93 U4; log entry 14). Rests on the spec's own decisions D6 and D13 (log entry 24). -/
def Obligations.WrCtlLaunchesABusCommandWord : Prop :=
  ∀ (s : State) (c : BitVec 4),
    (dirBit s.port.dir ++ c ∈ [0x07#5, 0x03#5, 0x01#5, 0x05#5, 0x04#5, 0x1B#5, 0x15#5] →
      exec (.wrCtl c) s = .next { s with
        trace := .launch s.cfg.addrCtl
          (placeBits [s.cfg.layout.ctlRun, s.cfg.layout.ctlStart, s.cfg.layout.ctlStop, s.cfg.layout.ctlAck] c.toNat)
          (dirBit s.port.dir ++ c) s.port.addr s.port.byte :: s.trace }) ∧
    (dirBit s.port.dir ++ c ∉ [0x07#5, 0x03#5, 0x01#5, 0x05#5, 0x04#5, 0x1B#5, 0x15#5] →
      exec (.wrCtl c) s = .refused .reservedBcw)

/-- 40 R145: RD_DATA is one read of the data address; it returns the byte and changes nothing else. Rests on the spec's own
decision D6 (log entry 24). -/
def Obligations.RdDataReturnsTheByte : Prop :=
  ∀ s : State, exec .rdData s = .next { s with
    rd := BitVec.ofNat 8 (extractBits s.cfg.layout.dataByte (nextAnswer s))
    answers := s.answers.tail
    draws := s.draws + 1
    trace := .read .data s.cfg.addrDR (nextAnswer s) :: s.trace }

/-- 40 R146: RD_PIN is one read of the pin address; it writes `P` and changes nothing else. Rests on the spec's own decision
D8 (log entry 24). -/
def Obligations.RdPinSamplesTheBusyPin : Prop :=
  ∀ s : State, exec .rdPin s = .next { s with
    scr := { s.scr with p := decide (nextAnswer s &&& s.cfg.pinMask ≠ 0) }
    answers := s.answers.tail
    draws := s.draws + 1
    trace := .read .pin s.cfg.pinAddr (nextAnswer s) :: s.trace }

/-- 40 R151 to R157, 30_encoding R107: each bus command word, in its own direction, writes its control word, its low four
bits RUN, START, STOP and ACK each at its place of the layout (R102, R104, R112), launches itself at the address and with
the byte last written, and changes nothing else; in the other direction the model refuses it (log entry 14). Rests on the
spec's own decisions D6, D13 and D18 (log entry 24). -/
def Obligations.BusCommandWordsLaunch : Prop :=
  ∀ (s : State) (i : Instr) (v : BitVec 5),
    (i, v) ∈ [(Instr.sendSingle, 0x07#5), (Instr.sendStart, 0x03#5), (Instr.sendCont, 0x01#5), (Instr.sendFinish, 0x05#5),
      (Instr.sendErrStop, 0x04#5), (Instr.recvStartAck, 0x1B#5), (Instr.recvFinish, 0x15#5)] →
    (dirBit s.port.dir = v.extractLsb' 4 1 → exec i s = .next { s with
      trace := .launch s.cfg.addrCtl
        (placeBits [s.cfg.layout.ctlRun, s.cfg.layout.ctlStart, s.cfg.layout.ctlStop, s.cfg.layout.ctlAck]
          (v.extractLsb' 0 4).toNat) v s.port.addr s.port.byte :: s.trace }) ∧
    (dirBit s.port.dir ≠ v.extractLsb' 4 1 → exec i s = .refused .bcwDirection)

/-- 30_encoding R107, R113: whatever the state, a step launches only one of the seven bus command words. Rests on the spec's
own decisions D6 and D13 (log entry 24). -/
def Obligations.OnlyTheSevenBusCommandWords : Prop :=
  ∀ s t : State, step s = .next t →
    (∀ e ∈ s.trace, ∀ v, e.bcw? = some v → v ∈ [0x07#5, 0x03#5, 0x01#5, 0x05#5, 0x04#5, 0x1B#5, 0x15#5]) →
    ∀ e ∈ t.trace, ∀ v, e.bcw? = some v → v ∈ [0x07#5, 0x03#5, 0x01#5, 0x05#5, 0x04#5, 0x1B#5, 0x15#5]

/-- 30_encoding R100: with nothing in the slot, every address word a step writes names DEV_ADDR. -/
def Obligations.OnlyTheOneSensorIsAddressed : Prop :=
  ∀ (s t : State) (a w : Word), s.slot = none → step s = .next t → t.trace = .write .addr a w :: s.trace →
    a = s.cfg.addrSA ∧ ∃ d, w = addrWord s.cfg.layout s.cfg.devAddr d

/-! ### Transport -/

/-- 41 R180: one pass of WAIT_IDLE reads the status and is in the loop still exactly when BUSY is 1; `E` is not written. -/
def Obligations.WaitIdlePassReadsTheStatus : Prop :=
  ∀ s : State, exec .waitIdle s = .next { s with
    pos := { s.pos with leaf := if (nextAnswer s).getLsbD s.cfg.layout.stBusy then some .waitIdle else none }
    st := statusOf s.cfg.layout (nextAnswer s)
    answers := s.answers.tail
    draws := s.draws + 1
    trace := .read .status s.cfg.addrStatus (nextAnswer s) :: s.trace }

/-- 41 R180: WAIT_IDLE (SEQ tag 0x0) reads the status at least once; it is still waiting after any number of busy answers,
with no bound, and ends with the first answer whose BUSY is 0. Error bits in the spin are ignored: `E` is not written. -/
def Obligations.WaitIdleEndsAtTheFirstIdleAnswer : Prop :=
  ∀ (s : State) (busy rest : List Word), configOk s → s.hostIn = [] → pick s = .op .waitIdle s →
    s.answers = busy ++ rest → (∀ b ∈ busy, ¬ idleAnswer s.cfg b) →
    decode .seq [0x0#8] = .ok (.waitIdle, []) ∧
    (∃ t, runFor busy.length s = .next t ∧ pick t = .op .waitIdle t ∧ t.answers = rest ∧ t.scr = s.scr ∧ t.stat = s.stat ∧
      t.trace = (busy.map (evRS s.cfg)).reverse ++ s.trace) ∧
    (∀ w tail, rest = w :: tail → idleAnswer s.cfg w →
      ∃ t, runFor (busy.length + 1) s = .next t ∧ t.pos.leaf = none ∧ t.answers = tail ∧ t.scr.e = s.scr.e ∧
        t.trace = evRS s.cfg w :: ((busy.map (evRS s.cfg)).reverse ++ s.trace))

/-- 60 R306, 41 R180, 43 R264: while the answers say busy the machine stays in the wait, and so does the command. -/
def Obligations.BusyAnswersKeepTheWait : Prop :=
  ∀ s : State, configOk s → s.hostIn = [] →
    (pick s = .op .waitIdle s → ¬ idleAnswer s.cfg (nextAnswer s) →
      ∃ t, step s = .next t ∧ pick t = .op .waitIdle t ∧ t.hostIn = [] ∧ t.cfg = s.cfg ∧ t.stat = s.stat ∧ t.acq = s.acq ∧
        t.scr = s.scr ∧ t.pos = { s.pos with leaf := some .waitIdle }) ∧
    (pick s = .op .waitDone s → pinOf s.cfg.pinMask (nextAnswer s) = s.cfg.busyLevel →
      ∃ t, step s = .next t ∧ pick t = .op .waitDone t ∧ t.hostIn = [] ∧ t.cfg = s.cfg ∧ t.stat = s.stat ∧ t.acq = s.acq ∧
        t.scr = { s.scr with p := s.cfg.busyLevel } ∧ t.pos = { s.pos with leaf := some .waitDone })

/-- 41 R181: ERR_SAMPLE is one status read whose three error fields become `E`, whatever BUSY says; nothing else changes.
Rests on the spec's own decisions D5 and D14 (log entry 24). -/
def Obligations.ErrSampleTakesTheThreeErrorFields : Prop :=
  ∀ s : State, exec .errSample s = .next { s with
    scr := { s.scr with
      e := BitVec.ofBool ((nextAnswer s).getLsbD s.cfg.layout.stBusErr) ++
        BitVec.ofBool ((nextAnswer s).getLsbD s.cfg.layout.stDataNack) ++
        BitVec.ofBool ((nextAnswer s).getLsbD s.cfg.layout.stAdrNack) }
    st := statusOf s.cfg.layout (nextAnswer s)
    answers := s.answers.tail
    draws := s.draws + 1
    trace := .read .status s.cfg.addrStatus (nextAnswer s) :: s.trace }

/-- 41 R183, R188: SEND1 (SEQ tag 0x2) loads its operand and runs SEND(1): S_W0 (however many busy answers it spins
through), S_SA, S_D0, S_C0 with SEND_SINGLE, S_W1, S_EF, S_END. The final sample is returned in `E`, recorded in LAST_ERR
and ACC_ERR, nothing is retried, and no further control word follows an error. The operand byte after the tag is the model's
choice (log entry 12). LAST_ERR and ACC_ERR rest on the spec's own decision D20 (log entry 24). -/
def Obligations.Send1Completes : Prop :=
  ∀ (s : State) (b0 : Byte) (k0 k1 : List Word) (w0 w1 ef : Word) (rest : List Word), configOk s → s.hostIn = [] →
    s.pos.leaf = none → s.answers = k0 ++ w0 :: (k1 ++ w1 :: ef :: rest) → (∀ w ∈ k0 ++ k1, ¬ idleAnswer s.cfg w) →
    idleAnswer s.cfg w0 → idleAnswer s.cfg w1 →
    decode .seq [0x2#8, b0] = .ok (.send1 b0, []) ∧
    ∃ t u, exec (.send1 b0) s = .next t ∧
      t = { s with scr := { s.scr with tx0 := b0, n := 1 }, pos := { s.pos with trans := some .sW0 } } ∧
      runFor (k0.length + k1.length + 6) t = .next u ∧ u.pos.leaf = none ∧ u.pos.trans = none ∧
      u.scr.e = errorOf s.cfg ef ∧ u.scr.x = false ∧
      u.stat.lastErr = errorOf s.cfg ef ∧ u.stat.accErr = s.stat.accErr ||| errorOf s.cfg ef ∧
      u.stat.anyExh = s.stat.anyExh ∧ u.answers = rest ∧
      u.trace = [evRS s.cfg ef, evRS s.cfg w1] ++ (k1.map (evRS s.cfg)).reverse ++
        [evWC s.cfg .send 0b0111 b0, evWD s.cfg b0, evWA s.cfg .send, evRS s.cfg w0] ++
        (k0.map (evRS s.cfg)).reverse ++ s.trace ∧
      (s.pos.proto = none → transportFrame s u)

/-- 41 R184: the success path of SEND2, ten events with one read a wait. Rests on the spec's own decision D20 (log entry
24). -/
def Obligations.Send2Completes : Prop :=
  ∀ (s : State) (b0 b1 : Byte) (w0 w1 e1 w2 ef : Word) (rest : List Word), configOk s → s.hostIn = [] → s.pos.leaf = none →
    s.answers = [w0, w1, e1, w2, ef] ++ rest → idleAnswer s.cfg w0 → idleAnswer s.cfg w1 → idleAnswer s.cfg w2 →
    errorOf s.cfg e1 = 0 →
    ∃ t u, exec (.send2 b0 b1) s = .next t ∧
      t = { s with scr := { s.scr with tx0 := b0, tx1 := b1, n := 2 }, pos := { s.pos with trans := some .sW0 } } ∧
      runFor 10 t = .next u ∧ u.pos.trans = none ∧ u.scr.e = errorOf s.cfg ef ∧ u.scr.x = false ∧
      u.stat.lastErr = errorOf s.cfg ef ∧ u.stat.accErr = s.stat.accErr ||| errorOf s.cfg ef ∧
      u.stat.anyExh = s.stat.anyExh ∧ u.answers = rest ∧
      u.trace = [evRS s.cfg ef, evRS s.cfg w2, evWC s.cfg .send 0b0101 b1, evWD s.cfg b1, evRS s.cfg e1,
        evRS s.cfg w1, evWC s.cfg .send 0b0011 b0, evWD s.cfg b0, evWA s.cfg .send, evRS s.cfg w0] ++ s.trace ∧
      (s.pos.proto = none → transportFrame s u)

/-- 41 R185: the success path of SEND3, fourteen events with one read a wait: exactly one START, on the first byte, and one
STOP, on the last. Rests on the spec's own decision D20 (log entry 24). -/
def Obligations.Send3Completes : Prop :=
  ∀ (s : State) (b0 b1 b2 : Byte) (w0 w1 e1 w2 e2 w3 ef : Word) (rest : List Word), configOk s → s.hostIn = [] →
    s.pos.leaf = none → s.answers = [w0, w1, e1, w2, e2, w3, ef] ++ rest → idleAnswer s.cfg w0 → idleAnswer s.cfg w1 →
    idleAnswer s.cfg w2 → idleAnswer s.cfg w3 → errorOf s.cfg e1 = 0 → errorOf s.cfg e2 = 0 →
    ∃ t u, exec (.send3 b0 b1 b2) s = .next t ∧
      t = { s with
        scr := { s.scr with tx0 := b0, tx1 := b1, tx2 := b2, n := 3 }, pos := { s.pos with trans := some .sW0 } } ∧
      runFor 14 t = .next u ∧ u.pos.trans = none ∧ u.scr.e = errorOf s.cfg ef ∧ u.scr.x = false ∧
      u.stat.lastErr = errorOf s.cfg ef ∧ u.stat.accErr = s.stat.accErr ||| errorOf s.cfg ef ∧
      u.stat.anyExh = s.stat.anyExh ∧ u.answers = rest ∧
      u.trace = [evRS s.cfg ef, evRS s.cfg w3, evWC s.cfg .send 0b0101 b2, evWD s.cfg b2, evRS s.cfg e2,
        evRS s.cfg w2, evWC s.cfg .send 0b0001 b1, evWD s.cfg b1, evRS s.cfg e1, evRS s.cfg w1,
        evWC s.cfg .send 0b0011 b0, evWD s.cfg b0, evWA s.cfg .send, evRS s.cfg w0] ++ s.trace ∧
      (s.pos.proto = none → transportFrame s u)

/-- 41 R182, R184, R185: an error sampled after the first byte of a two- or three-byte send makes CORE write SEND_ERR_STOP
at once, with no wait and no sample after it, and return that error; the second byte is never written. Rests on the spec's
own decisions D18 and D20 (log entry 24). -/
def Obligations.SendAbortsAfterTheFirstByte : Prop :=
  ∀ (s t : State) (i : Instr) (b0 b1 b2 : Byte) (w0 w1 e1 : Word) (rest : List Word), configOk s → s.hostIn = [] →
    s.pos.leaf = none → s.answers = [w0, w1, e1] ++ rest → idleAnswer s.cfg w0 → idleAnswer s.cfg w1 →
    errorOf s.cfg e1 ≠ 0 → (i = .send2 b0 b1 ∨ i = .send3 b0 b1 b2) → exec i s = .next t →
    ∃ u, runFor 7 t = .next u ∧ u.pos.trans = none ∧ u.scr.e = errorOf s.cfg e1 ∧ u.scr.x = false ∧
      u.stat.lastErr = errorOf s.cfg e1 ∧ u.stat.accErr = s.stat.accErr ||| errorOf s.cfg e1 ∧
      u.stat.anyExh = s.stat.anyExh ∧ u.answers = rest ∧
      u.trace = [evWC s.cfg .send 0b0100 b0, evRS s.cfg e1, evRS s.cfg w1, evWC s.cfg .send 0b0011 b0,
        evWD s.cfg b0, evWA s.cfg .send, evRS s.cfg w0] ++ s.trace ∧
      (s.pos.proto = none → transportFrame s u)

/-- 41 R185: a three-byte send that aborts after its second byte, eleven events with one read a wait. Rests on the spec's
own decisions D18 and D20 (log entry 24). -/
def Obligations.SendAbortsAfterTheSecondByte : Prop :=
  ∀ (s t : State) (b0 b1 b2 : Byte) (w0 w1 e1 w2 e2 : Word) (rest : List Word), configOk s → s.hostIn = [] →
    s.pos.leaf = none → s.answers = [w0, w1, e1, w2, e2] ++ rest → idleAnswer s.cfg w0 → idleAnswer s.cfg w1 →
    idleAnswer s.cfg w2 → errorOf s.cfg e1 = 0 → errorOf s.cfg e2 ≠ 0 → exec (.send3 b0 b1 b2) s = .next t →
    ∃ u, runFor 11 t = .next u ∧ u.pos.trans = none ∧ u.scr.e = errorOf s.cfg e2 ∧ u.scr.x = false ∧
      u.stat.lastErr = errorOf s.cfg e2 ∧ u.stat.accErr = s.stat.accErr ||| errorOf s.cfg e2 ∧
      u.stat.anyExh = s.stat.anyExh ∧ u.answers = rest ∧
      u.trace = [evWC s.cfg .send 0b0100 b1, evRS s.cfg e2, evRS s.cfg w2, evWC s.cfg .send 0b0001 b1, evWD s.cfg b1,
        evRS s.cfg e1, evRS s.cfg w1, evWC s.cfg .send 0b0011 b0, evWD s.cfg b0, evWA s.cfg .send,
        evRS s.cfg w0] ++ s.trace ∧
      (s.pos.proto = none → transportFrame s u)

/-- 41 R186, R187: RECV2 runs the nine events of an attempt again while ADR_NACK or BUS_ERR is sampled, and returns the
bytes of the first attempt, up to the fifth, whose sample has neither; `X` is 0. Rests on the spec's own decisions D16 and
D20 (log entry 24). -/
def Obligations.ReceiveReturnsTheFirstGoodAttempt : Prop :=
  ∀ (s : State) (bad : List Attempt) (good : Attempt) (rest : List Word), configOk s → s.hostIn = [] → s.pos.leaf = none →
    bad.length < 5 → s.answers = attemptAnswers bad ++ good.answers ++ rest → (∀ a ∈ bad, a.idle s.cfg) → good.idle s.cfg →
    (∀ a ∈ bad, (errorOf s.cfg a.we).getLsbD 0 = true ∨ (errorOf s.cfg a.we).getLsbD 2 = true) →
    (errorOf s.cfg good.we).getLsbD 0 = false → (errorOf s.cfg good.we).getLsbD 2 = false →
    ∃ t u, exec .recv2 s = .next t ∧
      t = { s with scr := { s.scr with att := 1 }, pos := { s.pos with trans := some .rW0 } } ∧
      runFor (9 * (bad.length + 1)) t = .next u ∧ u.pos.trans = none ∧
      u.scr.rb0 ++ u.scr.rb1 = good.raw s.cfg ∧ u.scr.e = errorOf s.cfg good.we ∧ u.scr.x = false ∧
      u.scr.att.toNat = bad.length + 1 ∧ u.stat.lastErr = errorOf s.cfg good.we ∧
      u.stat.accErr = s.stat.accErr ||| errorOf s.cfg good.we ∧ u.stat.anyExh = s.stat.anyExh ∧ u.answers = rest ∧
      u.trace = good.events s.cfg s.port.byte ++ ((bad.reverse.flatMap (Attempt.events s.cfg s.port.byte)) ++ s.trace) ∧
      (s.pos.proto = none → transportFrame s u)

/-- 41 R186: after five attempts that all sample ADR_NACK or BUS_ERR, the bytes are the sentinel whatever was captured, `X`
is 1, `E` is the fifth sample, and ANY_EXH is set. Rests on the spec's own decisions D16, D17 and D20 (log entry 24). -/
def Obligations.ReceiveExhaustsAfterFiveAttempts : Prop :=
  ∀ (s : State) (bad : List Attempt) (last : Attempt) (rest : List Word), configOk s → s.hostIn = [] → s.pos.leaf = none →
    bad.length = 4 → s.answers = attemptAnswers bad ++ last.answers ++ rest → (∀ a ∈ bad, a.idle s.cfg) → last.idle s.cfg →
    (∀ a ∈ bad, receiveRetries (errorOf s.cfg a.we) = true) → receiveRetries (errorOf s.cfg last.we) = true →
    ∃ t u, exec .recv2 s = .next t ∧ runFor 45 t = .next u ∧ u.pos.trans = none ∧
      u.scr.rb0 = 0xFF#8 ∧ u.scr.rb1 = 0xFF#8 ∧ u.scr.e = errorOf s.cfg last.we ∧ u.scr.x = true ∧ u.scr.att = 5#3 ∧
      u.stat.lastErr = errorOf s.cfg last.we ∧ u.stat.accErr = s.stat.accErr ||| errorOf s.cfg last.we ∧
      u.stat.anyExh = true ∧ u.answers = rest ∧
      u.trace = last.events s.cfg s.port.byte ++ ((bad.reverse.flatMap (Attempt.events s.cfg s.port.byte)) ++ s.trace) ∧
      (s.pos.proto = none → transportFrame s u)

/-- 41 R187: the number of attempts RECV2 runs is `min(k, 5)`, where `k` is the first attempt whose sample has neither
ADR_NACK nor BUS_ERR: at least 1, at most 5, each of nine events when every wait ends at its first read. Rests on the spec's
own decision D16 (log entry 24). -/
def Obligations.RetryBoundCountsAttempts : Prop :=
  ∀ (s : State) (tries : List Attempt) (rest : List Word), configOk s → s.hostIn = [] → s.pos.leaf = none →
    tries.length = 5 → (∀ a ∈ tries, a.idle s.cfg) → s.answers = attemptAnswers tries ++ rest →
    ∃ t u n, n = min (tries.findIdx (fun a =>
        !((errorOf s.cfg a.we).getLsbD 0 || (errorOf s.cfg a.we).getLsbD 2)) + 1) 5 ∧ 1 ≤ n ∧ n ≤ 5 ∧
      exec .recv2 s = .next t ∧ runFor (9 * n) t = .next u ∧ u.pos.trans = none ∧ u.scr.att.toNat = n ∧
      u.trace.length = s.trace.length + 9 * n ∧ u.answers = attemptAnswers (tries.drop n) ++ rest

/-- 10_state R42, 41 R186: in a receive attempt RB0 takes the first byte read and RB1 the second, however many busy answers
its three waits spin through; the machine then stands at R_E with both. -/
def Obligations.AttemptCapturesTheBytesInOrder : Prop :=
  ∀ (s : State) (k0 k1 k2 : List Word) (w0 w1 d0 w2 d1 : Word) (rest : List Word), configOk s → s.hostIn = [] →
    s.pos.leaf = none → s.pos.trans = some .rW0 →
    s.answers = k0 ++ w0 :: (k1 ++ w1 :: d0 :: (k2 ++ w2 :: d1 :: rest)) →
    (∀ w ∈ k0 ++ k1 ++ k2, ¬ idleAnswer s.cfg w) → idleAnswer s.cfg w0 → idleAnswer s.cfg w1 → idleAnswer s.cfg w2 →
    ∃ u, runFor (k0.length + k1.length + k2.length + 8) s = .next u ∧ u.pos = { s.pos with trans := some .rE } ∧
      u.scr = { s.scr with rb0 := byteOf s.cfg.layout d0, rb1 := byteOf s.cfg.layout d1 } ∧
      u.answers = rest ∧ u.stat = s.stat ∧ u.acq = s.acq ∧ u.raw = s.raw ∧ u.result = s.result ∧
      u.trace.filterMap Event.dataRead? = [d1, d0] ++ s.trace.filterMap Event.dataRead?

/-! ### Sensor protocol -/

/-- 42 R220: DECODE writes the exact magnitude m × 2^e of RR into MAG, with no event and nothing else changed; it is at most
4095 × 2^15. Rests on the spec's own decision D33 (log entry 24). -/
def Obligations.DecodeIsMantissaTimesPowerOfTwo : Prop :=
  ∀ s : State, ∃ m : BitVec 27, exec .decode s = .next { s with scr := { s.scr with mag := m } } ∧
    m.toNat = (s.scr.rr.extractLsb' 0 12).toNat * 2 ^ (s.scr.rr.extractLsb' 12 4).toNat ∧ m.toNat ≤ 134184960

/-- 42 R223, R224, 41 R185: the latch operations complete the operand load of that SEND3 and stand at its first label;
nothing else changes. Rests on the latch mask of R222, which the spec derives (log entry 24). -/
def Obligations.LatchOperationsEnterSend3 : Prop :=
  ∀ s : State,
    exec .cfgLatchClr s = .next { s with
      scr := { s.scr with
        tx0 := 0x01, tx1 := (s.scr.cfgWord &&& ~~~0x0010#16).extractLsb' 8 8
        tx2 := (s.scr.cfgWord &&& ~~~0x0010#16).extractLsb' 0 8, n := 3 }
      pos := { s.pos with trans := some .sW0 } } ∧
    exec .cfgLatchSet s = .next { s with
      scr := { s.scr with
        tx0 := 0x01, tx1 := (s.scr.cfgWord ||| 0x0010#16).extractLsb' 8 8
        tx2 := (s.scr.cfgWord ||| 0x0010#16).extractLsb' 0 8, n := 3 }
      pos := { s.pos with trans := some .sW0 } }

/-- 42 R230: the laws of the latch toggle, for every configuration word. Rests on R222 and R230, which the spec derives (log
entry 24). -/
def Obligations.LatchToggleLaws : Prop :=
  ∀ c : Half, latchCleared c = c &&& ~~~0x0010#16 ∧ latchSet c = c ||| 0x0010#16 ∧
    (latchSet c = c ↔ c.getLsbD 4 = true) ∧ latchCleared c ^^^ latchSet c = 0x0010#16

/-- 42 R225: BEGIN_CONV enters at B_LL; with clean answers it sends [0x02, low limit], then [0x01, configuration], then
performs one RECV2 whose value is discarded: 37 events and three calls. RAW, RESULT and RES_EXH do not change. Rests on the
spec's own decisions D20 and D35 (log entry 24). -/
def Obligations.BeginConvCompletes : Prop :=
  ∀ (s : State) (l c : List Word) (r : Attempt) (rest : List Word), configOk s → s.hostIn = [] → s.pos.leaf = none →
    s.pos.trans = none → l.length = 7 → c.length = 7 → (∀ w ∈ l ++ c, cleanAnswer s.cfg w) → r.idle s.cfg →
    receiveRetries (errorOf s.cfg r.we) = false → s.answers = l ++ c ++ r.answers ++ rest →
    ∃ t u, exec .beginConv s = .next t ∧ t = { s with pos := { s.pos with proto := some .bLL } } ∧
      runFor 40 t = .next u ∧ u.pos.leaf = none ∧ u.pos.trans = none ∧ u.pos.proto = none ∧
      (s.pos.host = none → u.acq = s.acq ∧ u.pos.host = none) ∧
      u.scr.cfgWord = s.scr.cfgWord ∧ u.scr.rr = s.scr.rr ∧ u.scr.mag = s.scr.mag ∧ u.scr.p = s.scr.p ∧
      u.raw = s.raw ∧ u.result = s.result ∧ u.stat.resExh = s.stat.resExh ∧ u.stat.lastErr = errorOf s.cfg r.we ∧
      u.answers = rest ∧ u.trace.length = s.trace.length + 37 ∧
      u.trace.filterMap Event.dataWrite? =
        [s.cfg.configWord.extractLsb' 0 8, s.cfg.configWord.extractLsb' 8 8, 0x01#8, s.cfg.lowLimitWord.extractLsb' 0 8,
          s.cfg.lowLimitWord.extractLsb' 8 8, 0x02#8].map (dataWord s.cfg.layout) ++ s.trace.filterMap Event.dataWrite? ∧
      u.trace.filterMap Event.bcw? =
        [0x15#5, 0x1B#5, 0x05#5, 0x01#5, 0x03#5, 0x05#5, 0x01#5, 0x03#5] ++ s.trace.filterMap Event.bcw?

/-- 42 R228: READ_RESULT enters at T_P0; with clean answers it selects pointer 0x00, receives and decodes the reading,
selects pointer 0x01, receives the configuration word, writes it back with the latch bit cleared and then set, and
publishes: 58 events, six calls and the decoding. Rests on the spec's own decisions D12 and D20 (log entry 24). -/
def Obligations.ReadResultCompletes : Prop :=
  ∀ (s : State) (a b : List Word) (r c : Attempt) (d e : List Word) (rest : List Word), configOk s → s.hostIn = [] →
    s.pos.leaf = none → s.pos.trans = none → a.length = 3 → b.length = 3 → d.length = 7 → e.length = 7 →
    (∀ w ∈ a ++ b ++ d ++ e, cleanAnswer s.cfg w) → r.idle s.cfg → cleanAnswer s.cfg r.we → c.idle s.cfg →
    cleanAnswer s.cfg c.we → s.answers = a ++ r.answers ++ b ++ c.answers ++ d ++ e ++ rest →
    ∃ t u, exec .readResult s = .next t ∧ t = { s with pos := { s.pos with proto := some .tP0 } } ∧
      runFor 65 t = .next u ∧ u.pos.leaf = none ∧ u.pos.trans = none ∧ u.pos.proto = none ∧
      (s.pos.host = none → u.acq = s.acq ∧ u.pos.host = none) ∧ u.scr.p = s.scr.p ∧
      u.raw = r.raw s.cfg ∧ u.result = (magnitude (r.raw s.cfg)).setWidth 32 ∧ u.scr.cfgWord = c.raw s.cfg ∧
      u.stat.resExh = s.stat.resExh ∧ u.stat.lastErr = 0 ∧ u.answers = rest ∧
      u.trace.length = s.trace.length + 58 ∧
      u.trace.filterMap Event.dataWrite? =
        [(latchSet (c.raw s.cfg)).extractLsb' 0 8, (latchSet (c.raw s.cfg)).extractLsb' 8 8, 0x01#8,
          (latchCleared (c.raw s.cfg)).extractLsb' 0 8, (latchCleared (c.raw s.cfg)).extractLsb' 8 8, 0x01#8, 0x01#8,
          0x00#8].map (dataWord s.cfg.layout) ++ s.trace.filterMap Event.dataWrite? ∧
      u.trace.filterMap Event.bcw? =
        [0x05#5, 0x01#5, 0x03#5, 0x05#5, 0x01#5, 0x03#5, 0x15#5, 0x1B#5, 0x07#5, 0x15#5, 0x1B#5, 0x07#5] ++
          s.trace.filterMap Event.bcw?

/-- 42 R227: no error changes the order of a protocol operation: when a transport primitive ends, the next label depends on
the label alone. -/
def Obligations.ProtocolOrderIgnoresErrors : Prop :=
  ∀ (s : State) (x : Bool) (l next : ProtoLabel), s.pos.proto = some l →
    (l, next) ∈ [(ProtoLabel.bLL, ProtoLabel.bCF), (ProtoLabel.bCF, ProtoLabel.bCLR), (ProtoLabel.tP0, ProtoLabel.tR0),
      (ProtoLabel.tR0, ProtoLabel.tDEC), (ProtoLabel.tP1, ProtoLabel.tR1), (ProtoLabel.tR1, ProtoLabel.tLC),
      (ProtoLabel.tLC, ProtoLabel.tLS)] →
    (endTransport x s).pos = { s.pos with proto := some next, trans := none }

/-- 42 R228: at the end of the result read RR takes {RB0, RB1} and RES_EXH is set if it exhausted; at the end of the
configuration read CFG takes {RB0, RB1}, the sentinel included (70 R352); at the end of T_LS the reading is published. Rests
on the spec's own decisions D20, D23 and D30 (log entry 24). -/
def Obligations.ReadResultCapturesAndPublishes : Prop :=
  ∀ s : State,
    (s.pos.proto = some .tR0 → ∀ x, (endTransport x s).scr.rr = s.scr.rb0 ++ s.scr.rb1 ∧
      (endTransport x s).stat.resExh = (s.stat.resExh || x)) ∧
    (s.pos.proto = some .tR1 → ∀ x, (endTransport x s).scr.cfgWord = s.scr.rb0 ++ s.scr.rb1) ∧
    (s.pos.proto = some .tLS → ∀ x, (endTransport x s).raw = s.scr.rr ∧
      (endTransport x s).result = s.scr.mag.setWidth 32 ∧ (endTransport x s).pos.proto = none)

/-! ### Acquisition -/

/-- 43 R260, 60 R305: a command that arrives while CORE_BUSY = 1, the reserved op code too, is ignored and sets only
CMD_OVERRUN; otherwise the reserved op code sets only CMD_ILLEGAL. Both effects are the spec's own decisions D3 and D4 (log
entry 15). -/
def Obligations.CommandsTurnedAwaySetOneBit : Prop :=
  ∀ (s : State) (op : BitVec 2) (rest : List HostMove), configOk s → s.hostIn = .cmd op :: rest →
    (s.stat.coreBusy = true → step s = .next { s with hostIn := rest, stat := { s.stat with cmdOverrun := true } }) ∧
    (s.stat.coreBusy = false → op = 0b00#2 →
      step s = .next { s with hostIn := rest, stat := { s.stat with cmdIllegal := true } })

/-- 43 R260 to R263: an accepted command sets CORE_BUSY, clears the handshake and the per-command error fields, records
CUR_OP, and stands at the first operation the command and ACQ ask for; BLOCKING_READ forces Idle from any state. The Ready
arm of POLL_END is the spec's own decision D21 (log entry 16). Rests on the spec's own decisions D2, D20 and D22 (log entry
24). -/
def Obligations.CommandsAreAccepted : Prop :=
  ∀ s : State, s.stat.coreBusy = false →
    exec .start s = .next { s with
      stat := { s.stat with coreBusy := true, respValid := false, respReady := false, lastErr := 0, accErr := 0,
                            resExh := false, anyExh := false }
      pos := { s.pos with
        curOp := some .start, host := some (if s.acq = .idle then .begin else .complete false) } } ∧
    exec .pollEnd s = .next { s with
      stat := { s.stat with coreBusy := true, respValid := false, respReady := false, lastErr := 0, accErr := 0,
                            resExh := false, anyExh := false }
      pos := { s.pos with
        curOp := some .pollEnd
        host := some (if s.acq = .idle then .begin else if s.acq = .measuring then .pin else .read) } } ∧
    exec .blockingRead s = .next { s with
      acq := .idle
      stat := { s.stat with coreBusy := true, respValid := false, respReady := false, lastErr := 0, accErr := 0,
                            resExh := false, anyExh := false }
      pos := { s.pos with curOp := some .blockingRead, host := some .begin } }

/-- 43 R264: WAIT_DONE (SEQ tag 0xB) samples the pin into `P` in each pass; it is still waiting after any number of busy
samples, with no bound, and ends with the first sample that is not busy, after which BLOCKING_READ reads the result (R263).
Rests on the spec's own decision D8 (log entry 24). -/
def Obligations.WaitDonePassSamplesThePin : Prop :=
  ∀ s : State,
    exec .waitDone s = .next { s with
      scr := { s.scr with p := pinOf s.cfg.pinMask (nextAnswer s) }
      pos := { s.pos with leaf := if pinOf s.cfg.pinMask (nextAnswer s) = s.cfg.busyLevel then some .waitDone else none }
      answers := s.answers.tail
      draws := s.draws + 1
      trace := .read .pin s.cfg.pinAddr (nextAnswer s) :: s.trace } ∧
    decode .seq [0xB#8] = .ok (.waitDone, []) ∧
    ∀ busy rest : List Word, configOk s → s.hostIn = [] → levelsFit s.pos → pick s = .op .waitDone s →
      s.answers = busy ++ rest → (∀ b ∈ busy, pinOf s.cfg.pinMask b = s.cfg.busyLevel) →
      (∃ t, runFor busy.length s = .next t ∧ pick t = .op .waitDone t ∧ t.answers = rest ∧ t.stat = s.stat ∧ t.acq = s.acq ∧
        t.scr = (if busy = [] then s.scr else { s.scr with p := s.cfg.busyLevel }) ∧
        t.trace = (busy.map (evRP s.cfg)).reverse ++ s.trace) ∧
      (∀ w tail, rest = w :: tail → pinOf s.cfg.pinMask w ≠ s.cfg.busyLevel →
        ∃ t, runFor (busy.length + 1) s = .next t ∧ t.pos.leaf = none ∧ t.answers = tail ∧ t.stat = s.stat ∧
          t.scr = { s.scr with p := pinOf s.cfg.pinMask w } ∧
          (s.pos.host = some .wait → t.acq = s.acq ∧ t.pos = { s.pos with host := some .read, leaf := none }) ∧
          t.trace = evRP s.cfg w :: ((busy.map (evRP s.cfg)).reverse ++ s.trace))

/-- 43 R265: COMPLETE is the last step of a command: it sets the handshake bits, ends the command, and responds with RESULT
and RAW; nothing else changes. Rests on the spec's own decision D30 (log entry 24). -/
def Obligations.CompletionResponds : Prop :=
  ∀ (s : State) (ready : Bool), configOk s → s.hostIn = [] → s.pos.leaf = none → s.pos.trans = none → s.pos.proto = none →
    s.pos.host = some (.complete ready) →
    step s = .next { s with
      stat := { s.stat with respReady := ready, respValid := true, coreBusy := false }
      pos := { s.pos with curOp := none, host := none }
      trace := .resp ready s.result s.raw :: s.trace }

/-- 43 R261: START in Measuring or Ready performs no interface event but its response, and changes nothing but the handshake
and per-command fields. Rests on the spec's own decisions D2, D20, D22 and D30 (log entry 24). -/
def Obligations.StartWhileNotIdleDoesNothing : Prop :=
  ∀ s : State, configOk s → s.hostIn = [.cmd 0b01#2] → s.pos = Pos.rest → s.stat.coreBusy = false → s.acq ≠ .idle →
    runFor 2 s = .next { s with
      hostIn := []
      stat := { s.stat with coreBusy := false, respValid := true, respReady := false, lastErr := 0, accErr := 0,
                            resExh := false, anyExh := false }
      trace := .resp false s.result s.raw :: s.trace }

/-- 43 R262: POLL_END in Measuring with the pin busy takes exactly one sample, answers not ready, and changes nothing but
`P` and the handshake and per-command fields. Rests on the spec's own decisions D2, D8, D20 and D30 (log entry 24). -/
def Obligations.PollEndWhileBusySamplesOnce : Prop :=
  ∀ (s : State) (w : Word) (rest : List Word), configOk s → s.hostIn = [.cmd 0b10#2] → s.pos = Pos.rest →
    s.stat.coreBusy = false → s.acq = .measuring → s.answers = w :: rest → pinOf s.cfg.pinMask w = s.cfg.busyLevel →
    runFor 3 s = .next { s with
      hostIn := []
      scr := { s.scr with p := s.cfg.busyLevel }
      stat := { s.stat with coreBusy := false, respValid := true, respReady := false, lastErr := 0, accErr := 0,
                            resExh := false, anyExh := false }
      answers := rest
      draws := s.draws + 1
      trace := [.resp false s.result s.raw, evRP s.cfg w] ++ s.trace }

/-- 43 R261, R262: START from Idle, and POLL_END from Idle, which is an implicit START, run BEGIN_CONV whole with clean
answers: 37 events, the two sends of R225 and one receive. They move to Measuring and complete not ready with no error.
Rests on the spec's own decisions D2, D5, D20, D22, D30 and D35 (log entry 24). -/
def Obligations.StartFromIdleBeginsAConversion : Prop :=
  ∀ (s : State) (op : BitVec 2) (l c : List Word) (r : Attempt) (rest : List Word), configOk s →
    (op = 0b01#2 ∨ op = 0b10#2) → s.hostIn = [.cmd op] → s.pos = Pos.rest → s.stat.coreBusy = false → s.acq = .idle →
    l.length = 7 → c.length = 7 → (∀ w ∈ l ++ c, cleanAnswer s.cfg w) → r.idle s.cfg → cleanAnswer s.cfg r.we →
    s.answers = l ++ c ++ r.answers ++ rest →
    ∃ u, runFor 43 s = .next u ∧ u.pos = Pos.rest ∧ u.acq = .measuring ∧
      (coreStatus u).extractLsb' 0 13 = 0x0009#13 ∧ u.stat.cmdOverrun = s.stat.cmdOverrun ∧ u.stat.cmdIllegal = s.stat.cmdIllegal ∧
      u.raw = s.raw ∧ u.result = s.result ∧ u.cfg = s.cfg ∧ u.slot = s.slot ∧ u.hostIn = [] ∧ u.answers = rest ∧
      u.scr.cfgWord = s.scr.cfgWord ∧ u.scr.rr = s.scr.rr ∧ u.scr.mag = s.scr.mag ∧ u.scr.p = s.scr.p ∧
      u.trace.length = s.trace.length + 38 ∧ u.trace.head? = some (.resp false s.result s.raw) ∧
      u.trace.filterMap Event.dataWrite? =
        [s.cfg.configWord.extractLsb' 0 8, s.cfg.configWord.extractLsb' 8 8, 0x01#8, s.cfg.lowLimitWord.extractLsb' 0 8,
          s.cfg.lowLimitWord.extractLsb' 8 8, 0x02#8].map (dataWord s.cfg.layout) ++ s.trace.filterMap Event.dataWrite? ∧
      u.trace.filterMap Event.bcw? =
        [0x15#5, 0x1B#5, 0x05#5, 0x01#5, 0x03#5, 0x05#5, 0x01#5, 0x03#5] ++ s.trace.filterMap Event.bcw?

/-- 43 R262, 42 R228: POLL_END in Measuring with the pin done (59 events), and POLL_END in Ready, which samples no pin (58
events), run READ_RESULT whole with clean answers: they publish the two result bytes and their decoding, write the
configuration back with the latch bit cleared and then set, move to Idle, and complete ready with no error. The Ready arm is
the spec's own decision D21 (log entry 16). Rests on the spec's own decisions D2, D5, D20, D23, D30 and D33 (log entry 24). -/
def Obligations.PollEndDeliversTheReading : Prop :=
  ∀ (s : State) (pin : List Word) (a b : List Word) (r c : Attempt) (d e : List Word) (rest : List Word), configOk s →
    s.hostIn = [.cmd 0b10#2] → s.pos = Pos.rest → s.stat.coreBusy = false →
    ((s.acq = .measuring ∧ ∃ p, pin = [p] ∧ pinOf s.cfg.pinMask p ≠ s.cfg.busyLevel) ∨ (s.acq = .ready ∧ pin = [])) →
    a.length = 3 → b.length = 3 → d.length = 7 → e.length = 7 →
    (∀ w ∈ a ++ b ++ d ++ e, cleanAnswer s.cfg w) → r.idle s.cfg → cleanAnswer s.cfg r.we → c.idle s.cfg →
    cleanAnswer s.cfg c.we → s.answers = pin ++ (a ++ r.answers ++ b ++ c.answers ++ d ++ e ++ rest) →
    ∃ u, runFor (68 + pin.length) s = .next u ∧ u.pos = Pos.rest ∧ u.acq = .idle ∧
      (coreStatus u).extractLsb' 0 13 = 0x0018#13 ∧ u.stat.cmdOverrun = s.stat.cmdOverrun ∧ u.stat.cmdIllegal = s.stat.cmdIllegal ∧
      u.raw = r.raw s.cfg ∧
      u.result.toNat = ((r.raw s.cfg).extractLsb' 0 12).toNat * 2 ^ ((r.raw s.cfg).extractLsb' 12 4).toNat ∧
      u.scr.cfgWord = c.raw s.cfg ∧ u.cfg = s.cfg ∧ u.slot = s.slot ∧ u.hostIn = [] ∧ u.answers = rest ∧
      u.scr.p = (if pin = [] then s.scr.p else !s.cfg.busyLevel) ∧
      u.trace.length = s.trace.length + 59 + pin.length ∧ u.trace.head? = some (.resp true u.result u.raw) ∧
      u.trace.filterMap Event.dataWrite? =
        [(latchSet (c.raw s.cfg)).extractLsb' 0 8, (latchSet (c.raw s.cfg)).extractLsb' 8 8, 0x01#8,
          (latchCleared (c.raw s.cfg)).extractLsb' 0 8, (latchCleared (c.raw s.cfg)).extractLsb' 8 8, 0x01#8, 0x01#8,
          0x00#8].map (dataWord s.cfg.layout) ++ s.trace.filterMap Event.dataWrite? ∧
      u.trace.filterMap Event.bcw? =
        [0x05#5, 0x01#5, 0x03#5, 0x05#5, 0x01#5, 0x03#5, 0x15#5, 0x1B#5, 0x07#5, 0x15#5, 0x1B#5, 0x07#5] ++
          s.trace.filterMap Event.bcw?

/-- 43 R263: BLOCKING_READ from any acquisition state, with clean answers and a pin that is done after any number of busy
samples, forces Idle and runs BEGIN_CONV, WAIT_DONE and READ_RESULT: 96 events and one more for each busy sample. It
completes ready in Idle with the reading. Rests on the spec's own decisions D2, D5, D8, D20, D23, D30, D33 and D35 (log
entry 24). -/
def Obligations.BlockingReadDeliversTheReading : Prop :=
  ∀ (s : State) (l k : List Word) (q : Attempt) (busy : List Word) (p : Word) (a b : List Word) (r c : Attempt)
    (d e : List Word) (rest : List Word), configOk s → s.hostIn = [.cmd 0b11#2] → s.pos = Pos.rest →
    s.stat.coreBusy = false → l.length = 7 → k.length = 7 → a.length = 3 → b.length = 3 → d.length = 7 → e.length = 7 →
    (∀ w ∈ l ++ k ++ a ++ b ++ d ++ e, cleanAnswer s.cfg w) → q.idle s.cfg → cleanAnswer s.cfg q.we →
    (∀ w ∈ busy, pinOf s.cfg.pinMask w = s.cfg.busyLevel) → pinOf s.cfg.pinMask p ≠ s.cfg.busyLevel → r.idle s.cfg →
    cleanAnswer s.cfg r.we → c.idle s.cfg → cleanAnswer s.cfg c.we →
    s.answers = l ++ k ++ q.answers ++ (busy ++ p :: (a ++ r.answers ++ b ++ c.answers ++ d ++ e ++ rest)) →
    ∃ u, runFor (110 + busy.length) s = .next u ∧ u.pos = Pos.rest ∧ u.acq = .idle ∧
      (coreStatus u).extractLsb' 0 13 = 0x0018#13 ∧ u.stat.cmdOverrun = s.stat.cmdOverrun ∧ u.stat.cmdIllegal = s.stat.cmdIllegal ∧
      u.raw = r.raw s.cfg ∧
      u.result.toNat = ((r.raw s.cfg).extractLsb' 0 12).toNat * 2 ^ ((r.raw s.cfg).extractLsb' 12 4).toNat ∧
      u.scr.cfgWord = c.raw s.cfg ∧ u.scr.p = (!s.cfg.busyLevel) ∧ u.cfg = s.cfg ∧ u.slot = s.slot ∧ u.hostIn = [] ∧
      u.answers = rest ∧ u.trace.length = s.trace.length + 97 + busy.length ∧
      u.trace.head? = some (.resp true u.result u.raw) ∧
      u.trace.filterMap Event.dataWrite? =
        ([(latchSet (c.raw s.cfg)).extractLsb' 0 8, (latchSet (c.raw s.cfg)).extractLsb' 8 8, 0x01#8,
            (latchCleared (c.raw s.cfg)).extractLsb' 0 8, (latchCleared (c.raw s.cfg)).extractLsb' 8 8, 0x01#8, 0x01#8,
            0x00#8] ++
          [s.cfg.configWord.extractLsb' 0 8, s.cfg.configWord.extractLsb' 8 8, 0x01#8, s.cfg.lowLimitWord.extractLsb' 0 8,
            s.cfg.lowLimitWord.extractLsb' 8 8, 0x02#8]).map (dataWord s.cfg.layout) ++ s.trace.filterMap Event.dataWrite? ∧
      u.trace.filterMap Event.bcw? =
        [0x05#5, 0x01#5, 0x03#5, 0x05#5, 0x01#5, 0x03#5, 0x15#5, 0x1B#5, 0x07#5, 0x15#5, 0x1B#5, 0x07#5] ++
          [0x15#5, 0x1B#5, 0x05#5, 0x01#5, 0x03#5, 0x05#5, 0x01#5, 0x03#5] ++ s.trace.filterMap Event.bcw?

/-! ### Invariants and whole-machine rules -/

/-- 10_state R33, R51: CORE_BUSY is 1 exactly while a host operation is in progress, in every step. Rests on the spec's own
decisions D1, D2 and D30 (log entry 24). -/
def Obligations.BusyBitFollowsTheCommand : Prop := ∀ s t : State, busyMatches s → step s = .next t → busyMatches t

/-- 10_state R47 to R51: the order among the fields of CORE_STATUS is kept by every step (that the levels of the position
fit is an invariant too: ResultStaysTheDecodingOfRaw). Rests on the spec's own decisions D2, D5, D20 and D30 (log entry 24).
-/
def Obligations.StatusFieldsStayOrdered : Prop :=
  ∀ s t : State, levelsFit s.pos → flagsOrdered s.stat → step s = .next t → flagsOrdered t.stat

/-- 10_state R43, R45: every step keeps RESULT the decoding of RAW. Rests on the spec's own decisions D23, D30 and D33 (log
entry 24). -/
def Obligations.ResultStaysTheDecodingOfRaw : Prop :=
  ∀ s t : State, levelsFit s.pos → readingMatches s → step s = .next t → levelsFit t.pos ∧ readingMatches t

/-- 60 R300, R302: from every state with an accepted configuration (log entry 19), an empty slot (log entry 11) and a
sequence that fits its registers, the machine goes on to another such state: no error, and no answer of the outside, stops
CORE. The host is not held to its duty (R320), so this says too that the run goes on after a command while CORE is busy and
after the reserved op code, which rest on the spec's own decisions D3 and D4 (log entry 15), and after POLL_END in Ready,
which rests on D21 (log entry 16). -/
def Obligations.NoErrorStopsTheMachine : Prop := ∀ s : State, canGoOn s → ∃ t, step s = .next t ∧ canGoOn t

/-- The reset state meets every invariant above. `canGoOn State.reset` includes `configOk`, which rests on the model's
BM_BASE, PIN_ADDR and PIN_MASK (log entry 2), on the default words and layout (log entry 3) and on the empty slot (log entry
11); the reset values of R57 and R340 give the rest. Rests on the spec's own decisions D24 and D36 (log entry 24). -/
def Obligations.ResetMeetsTheInvariants : Prop :=
  busyMatches State.reset ∧ flagsOrdered State.reset.stat ∧ levelsFit State.reset.pos ∧ readingMatches State.reset ∧
  canGoOn State.reset

/-- 43 R266, 70 R341, 10_state R38: with nothing in the slot, ACQ changes only by RST, by an accepted BLOCKING_READ, at the
end of BEGIN_CONV, and at the end of READ_RESULT; no step at all moves it to Ready. Rests on R38 and R266, which the spec
derives (log entry 24). -/
def Obligations.AcquisitionStateTransitions : Prop :=
  ∀ s t : State, step s = .next t → (t.acq = .ready → s.acq = .ready) ∧ (s.slot = none →
    t.acq = s.acq ∨
    (t.acq = .idle ∧ ∃ rest, s.hostIn = .rst :: rest) ∨
    (t.acq = .idle ∧ s.stat.coreBusy = false ∧ ∃ rest, s.hostIn = .cmd 0b11#2 :: rest) ∨
    (t.acq = .measuring ∧ s.pos.host = some .begin ∧
      t.pos.host = some (if s.pos.curOp = some .blockingRead then .wait else .complete false)) ∨
    (t.acq = .idle ∧ s.pos.host = some .read ∧ t.pos.host = some (.complete true)))

/-- 10_state R50: only RST clears the sticky bits. Rests on the spec's own decisions D3 and D4 (log entry 24). -/
def Obligations.StickyBitsStay : Prop :=
  ∀ s t : State, step s = .next t → (∀ rest, s.hostIn ≠ .rst :: rest) →
    (s.stat.cmdOverrun = true → t.stat.cmdOverrun = true) ∧ (s.stat.cmdIllegal = true → t.stat.cmdIllegal = true)

/-- 10_state R43, R45: RAW and RESULT change only by RST and when READ_RESULT completes, and then to RR and MAG. Rests on
the spec's own decisions D23, D24 and D30 (log entry 24). -/
def Obligations.ReadingChangesOnlyAtPublication : Prop :=
  ∀ s t : State, step s = .next t → (∀ rest, s.hostIn ≠ .rst :: rest) → (t.raw ≠ s.raw ∨ t.result ≠ s.result) →
    s.pos.proto = some .tLS ∧ t.pos.proto = none ∧ t.raw = s.scr.rr ∧ t.result = s.scr.mag.setWidth 32
end

