-- ==== Sys2Proof/Laws/State.lean ====
section
/-! SUPPORT. One lemma for each field and each update of Machine/Ops.lean, true by rfl, so that no proof unfolds a record
update. -/
namespace Sys2Proof.Machine

variable (s : State)

@[simp] theorem State.setAcq_cfg (a : Acq) : (s.setAcq a).cfg = s.cfg := rfl
@[simp] theorem State.setAcq_acq (a : Acq) : (s.setAcq a).acq = a := rfl
@[simp] theorem State.setAcq_pos (a : Acq) : (s.setAcq a).pos = s.pos := rfl
@[simp] theorem State.setAcq_scr (a : Acq) : (s.setAcq a).scr = s.scr := rfl
@[simp] theorem State.setAcq_stat (a : Acq) : (s.setAcq a).stat = s.stat := rfl
@[simp] theorem State.setAcq_raw (a : Acq) : (s.setAcq a).raw = s.raw := rfl
@[simp] theorem State.setAcq_result (a : Acq) : (s.setAcq a).result = s.result := rfl
@[simp] theorem State.setAcq_st (a : Acq) : (s.setAcq a).st = s.st := rfl
@[simp] theorem State.setAcq_rd (a : Acq) : (s.setAcq a).rd = s.rd := rfl
@[simp] theorem State.setAcq_port (a : Acq) : (s.setAcq a).port = s.port := rfl
@[simp] theorem State.setAcq_hostIn (a : Acq) : (s.setAcq a).hostIn = s.hostIn := rfl
@[simp] theorem State.setAcq_answers (a : Acq) : (s.setAcq a).answers = s.answers := rfl
@[simp] theorem State.setAcq_draws (a : Acq) : (s.setAcq a).draws = s.draws := rfl
@[simp] theorem State.setAcq_trace (a : Acq) : (s.setAcq a).trace = s.trace := rfl
@[simp] theorem State.setAcq_slot (a : Acq) : (s.setAcq a).slot = s.slot := rfl

@[simp] theorem State.setPos_cfg (p : Pos) : (s.setPos p).cfg = s.cfg := rfl
@[simp] theorem State.setPos_acq (p : Pos) : (s.setPos p).acq = s.acq := rfl
@[simp] theorem State.setPos_pos (p : Pos) : (s.setPos p).pos = p := rfl
@[simp] theorem State.setPos_scr (p : Pos) : (s.setPos p).scr = s.scr := rfl
@[simp] theorem State.setPos_stat (p : Pos) : (s.setPos p).stat = s.stat := rfl
@[simp] theorem State.setPos_raw (p : Pos) : (s.setPos p).raw = s.raw := rfl
@[simp] theorem State.setPos_result (p : Pos) : (s.setPos p).result = s.result := rfl
@[simp] theorem State.setPos_st (p : Pos) : (s.setPos p).st = s.st := rfl
@[simp] theorem State.setPos_rd (p : Pos) : (s.setPos p).rd = s.rd := rfl
@[simp] theorem State.setPos_port (p : Pos) : (s.setPos p).port = s.port := rfl
@[simp] theorem State.setPos_hostIn (p : Pos) : (s.setPos p).hostIn = s.hostIn := rfl
@[simp] theorem State.setPos_answers (p : Pos) : (s.setPos p).answers = s.answers := rfl
@[simp] theorem State.setPos_draws (p : Pos) : (s.setPos p).draws = s.draws := rfl
@[simp] theorem State.setPos_trace (p : Pos) : (s.setPos p).trace = s.trace := rfl
@[simp] theorem State.setPos_slot (p : Pos) : (s.setPos p).slot = s.slot := rfl

@[simp] theorem State.setScr_cfg (r : Scratch) : (s.setScr r).cfg = s.cfg := rfl
@[simp] theorem State.setScr_acq (r : Scratch) : (s.setScr r).acq = s.acq := rfl
@[simp] theorem State.setScr_pos (r : Scratch) : (s.setScr r).pos = s.pos := rfl
@[simp] theorem State.setScr_scr (r : Scratch) : (s.setScr r).scr = r := rfl
@[simp] theorem State.setScr_stat (r : Scratch) : (s.setScr r).stat = s.stat := rfl
@[simp] theorem State.setScr_raw (r : Scratch) : (s.setScr r).raw = s.raw := rfl
@[simp] theorem State.setScr_result (r : Scratch) : (s.setScr r).result = s.result := rfl
@[simp] theorem State.setScr_st (r : Scratch) : (s.setScr r).st = s.st := rfl
@[simp] theorem State.setScr_rd (r : Scratch) : (s.setScr r).rd = s.rd := rfl
@[simp] theorem State.setScr_port (r : Scratch) : (s.setScr r).port = s.port := rfl
@[simp] theorem State.setScr_hostIn (r : Scratch) : (s.setScr r).hostIn = s.hostIn := rfl
@[simp] theorem State.setScr_answers (r : Scratch) : (s.setScr r).answers = s.answers := rfl
@[simp] theorem State.setScr_draws (r : Scratch) : (s.setScr r).draws = s.draws := rfl
@[simp] theorem State.setScr_trace (r : Scratch) : (s.setScr r).trace = s.trace := rfl
@[simp] theorem State.setScr_slot (r : Scratch) : (s.setScr r).slot = s.slot := rfl

@[simp] theorem State.setStat_cfg (f : Stat) : (s.setStat f).cfg = s.cfg := rfl
@[simp] theorem State.setStat_acq (f : Stat) : (s.setStat f).acq = s.acq := rfl
@[simp] theorem State.setStat_pos (f : Stat) : (s.setStat f).pos = s.pos := rfl
@[simp] theorem State.setStat_scr (f : Stat) : (s.setStat f).scr = s.scr := rfl
@[simp] theorem State.setStat_stat (f : Stat) : (s.setStat f).stat = f := rfl
@[simp] theorem State.setStat_raw (f : Stat) : (s.setStat f).raw = s.raw := rfl
@[simp] theorem State.setStat_result (f : Stat) : (s.setStat f).result = s.result := rfl
@[simp] theorem State.setStat_st (f : Stat) : (s.setStat f).st = s.st := rfl
@[simp] theorem State.setStat_rd (f : Stat) : (s.setStat f).rd = s.rd := rfl
@[simp] theorem State.setStat_port (f : Stat) : (s.setStat f).port = s.port := rfl
@[simp] theorem State.setStat_hostIn (f : Stat) : (s.setStat f).hostIn = s.hostIn := rfl
@[simp] theorem State.setStat_answers (f : Stat) : (s.setStat f).answers = s.answers := rfl
@[simp] theorem State.setStat_draws (f : Stat) : (s.setStat f).draws = s.draws := rfl
@[simp] theorem State.setStat_trace (f : Stat) : (s.setStat f).trace = s.trace := rfl
@[simp] theorem State.setStat_slot (f : Stat) : (s.setStat f).slot = s.slot := rfl

@[simp] theorem State.setReading_cfg (w : Half) (v : Word) : (s.setReading w v).cfg = s.cfg := rfl
@[simp] theorem State.setReading_acq (w : Half) (v : Word) : (s.setReading w v).acq = s.acq := rfl
@[simp] theorem State.setReading_pos (w : Half) (v : Word) : (s.setReading w v).pos = s.pos := rfl
@[simp] theorem State.setReading_scr (w : Half) (v : Word) : (s.setReading w v).scr = s.scr := rfl
@[simp] theorem State.setReading_stat (w : Half) (v : Word) : (s.setReading w v).stat = s.stat := rfl
@[simp] theorem State.setReading_raw (w : Half) (v : Word) : (s.setReading w v).raw = w := rfl
@[simp] theorem State.setReading_result (w : Half) (v : Word) : (s.setReading w v).result = v := rfl
@[simp] theorem State.setReading_st (w : Half) (v : Word) : (s.setReading w v).st = s.st := rfl
@[simp] theorem State.setReading_rd (w : Half) (v : Word) : (s.setReading w v).rd = s.rd := rfl
@[simp] theorem State.setReading_port (w : Half) (v : Word) : (s.setReading w v).port = s.port := rfl
@[simp] theorem State.setReading_hostIn (w : Half) (v : Word) : (s.setReading w v).hostIn = s.hostIn := rfl
@[simp] theorem State.setReading_answers (w : Half) (v : Word) : (s.setReading w v).answers = s.answers := rfl
@[simp] theorem State.setReading_draws (w : Half) (v : Word) : (s.setReading w v).draws = s.draws := rfl
@[simp] theorem State.setReading_trace (w : Half) (v : Word) : (s.setReading w v).trace = s.trace := rfl
@[simp] theorem State.setReading_slot (w : Half) (v : Word) : (s.setReading w v).slot = s.slot := rfl

@[simp] theorem State.setSt_cfg (v : PortStatus) : (s.setSt v).cfg = s.cfg := rfl
@[simp] theorem State.setSt_acq (v : PortStatus) : (s.setSt v).acq = s.acq := rfl
@[simp] theorem State.setSt_pos (v : PortStatus) : (s.setSt v).pos = s.pos := rfl
@[simp] theorem State.setSt_scr (v : PortStatus) : (s.setSt v).scr = s.scr := rfl
@[simp] theorem State.setSt_stat (v : PortStatus) : (s.setSt v).stat = s.stat := rfl
@[simp] theorem State.setSt_raw (v : PortStatus) : (s.setSt v).raw = s.raw := rfl
@[simp] theorem State.setSt_result (v : PortStatus) : (s.setSt v).result = s.result := rfl
@[simp] theorem State.setSt_st (v : PortStatus) : (s.setSt v).st = v := rfl
@[simp] theorem State.setSt_rd (v : PortStatus) : (s.setSt v).rd = s.rd := rfl
@[simp] theorem State.setSt_port (v : PortStatus) : (s.setSt v).port = s.port := rfl
@[simp] theorem State.setSt_hostIn (v : PortStatus) : (s.setSt v).hostIn = s.hostIn := rfl
@[simp] theorem State.setSt_answers (v : PortStatus) : (s.setSt v).answers = s.answers := rfl
@[simp] theorem State.setSt_draws (v : PortStatus) : (s.setSt v).draws = s.draws := rfl
@[simp] theorem State.setSt_trace (v : PortStatus) : (s.setSt v).trace = s.trace := rfl
@[simp] theorem State.setSt_slot (v : PortStatus) : (s.setSt v).slot = s.slot := rfl

@[simp] theorem State.setRd_cfg (v : Byte) : (s.setRd v).cfg = s.cfg := rfl
@[simp] theorem State.setRd_acq (v : Byte) : (s.setRd v).acq = s.acq := rfl
@[simp] theorem State.setRd_pos (v : Byte) : (s.setRd v).pos = s.pos := rfl
@[simp] theorem State.setRd_scr (v : Byte) : (s.setRd v).scr = s.scr := rfl
@[simp] theorem State.setRd_stat (v : Byte) : (s.setRd v).stat = s.stat := rfl
@[simp] theorem State.setRd_raw (v : Byte) : (s.setRd v).raw = s.raw := rfl
@[simp] theorem State.setRd_result (v : Byte) : (s.setRd v).result = s.result := rfl
@[simp] theorem State.setRd_st (v : Byte) : (s.setRd v).st = s.st := rfl
@[simp] theorem State.setRd_rd (v : Byte) : (s.setRd v).rd = v := rfl
@[simp] theorem State.setRd_port (v : Byte) : (s.setRd v).port = s.port := rfl
@[simp] theorem State.setRd_hostIn (v : Byte) : (s.setRd v).hostIn = s.hostIn := rfl
@[simp] theorem State.setRd_answers (v : Byte) : (s.setRd v).answers = s.answers := rfl
@[simp] theorem State.setRd_draws (v : Byte) : (s.setRd v).draws = s.draws := rfl
@[simp] theorem State.setRd_trace (v : Byte) : (s.setRd v).trace = s.trace := rfl
@[simp] theorem State.setRd_slot (v : Byte) : (s.setRd v).slot = s.slot := rfl

@[simp] theorem State.setPort_cfg (v : BusPort) : (s.setPort v).cfg = s.cfg := rfl
@[simp] theorem State.setPort_acq (v : BusPort) : (s.setPort v).acq = s.acq := rfl
@[simp] theorem State.setPort_pos (v : BusPort) : (s.setPort v).pos = s.pos := rfl
@[simp] theorem State.setPort_scr (v : BusPort) : (s.setPort v).scr = s.scr := rfl
@[simp] theorem State.setPort_stat (v : BusPort) : (s.setPort v).stat = s.stat := rfl
@[simp] theorem State.setPort_raw (v : BusPort) : (s.setPort v).raw = s.raw := rfl
@[simp] theorem State.setPort_result (v : BusPort) : (s.setPort v).result = s.result := rfl
@[simp] theorem State.setPort_st (v : BusPort) : (s.setPort v).st = s.st := rfl
@[simp] theorem State.setPort_rd (v : BusPort) : (s.setPort v).rd = s.rd := rfl
@[simp] theorem State.setPort_port (v : BusPort) : (s.setPort v).port = v := rfl
@[simp] theorem State.setPort_hostIn (v : BusPort) : (s.setPort v).hostIn = s.hostIn := rfl
@[simp] theorem State.setPort_answers (v : BusPort) : (s.setPort v).answers = s.answers := rfl
@[simp] theorem State.setPort_draws (v : BusPort) : (s.setPort v).draws = s.draws := rfl
@[simp] theorem State.setPort_trace (v : BusPort) : (s.setPort v).trace = s.trace := rfl
@[simp] theorem State.setPort_slot (v : BusPort) : (s.setPort v).slot = s.slot := rfl

@[simp] theorem State.setHostIn_cfg (v : List HostMove) : (s.setHostIn v).cfg = s.cfg := rfl
@[simp] theorem State.setHostIn_acq (v : List HostMove) : (s.setHostIn v).acq = s.acq := rfl
@[simp] theorem State.setHostIn_pos (v : List HostMove) : (s.setHostIn v).pos = s.pos := rfl
@[simp] theorem State.setHostIn_scr (v : List HostMove) : (s.setHostIn v).scr = s.scr := rfl
@[simp] theorem State.setHostIn_stat (v : List HostMove) : (s.setHostIn v).stat = s.stat := rfl
@[simp] theorem State.setHostIn_raw (v : List HostMove) : (s.setHostIn v).raw = s.raw := rfl
@[simp] theorem State.setHostIn_result (v : List HostMove) : (s.setHostIn v).result = s.result := rfl
@[simp] theorem State.setHostIn_st (v : List HostMove) : (s.setHostIn v).st = s.st := rfl
@[simp] theorem State.setHostIn_rd (v : List HostMove) : (s.setHostIn v).rd = s.rd := rfl
@[simp] theorem State.setHostIn_port (v : List HostMove) : (s.setHostIn v).port = s.port := rfl
@[simp] theorem State.setHostIn_hostIn (v : List HostMove) : (s.setHostIn v).hostIn = v := rfl
@[simp] theorem State.setHostIn_answers (v : List HostMove) : (s.setHostIn v).answers = s.answers := rfl
@[simp] theorem State.setHostIn_draws (v : List HostMove) : (s.setHostIn v).draws = s.draws := rfl
@[simp] theorem State.setHostIn_trace (v : List HostMove) : (s.setHostIn v).trace = s.trace := rfl
@[simp] theorem State.setHostIn_slot (v : List HostMove) : (s.setHostIn v).slot = s.slot := rfl

@[simp] theorem State.setSlot_cfg (v : Option RawOp) : (s.setSlot v).cfg = s.cfg := rfl
@[simp] theorem State.setSlot_acq (v : Option RawOp) : (s.setSlot v).acq = s.acq := rfl
@[simp] theorem State.setSlot_pos (v : Option RawOp) : (s.setSlot v).pos = s.pos := rfl
@[simp] theorem State.setSlot_scr (v : Option RawOp) : (s.setSlot v).scr = s.scr := rfl
@[simp] theorem State.setSlot_stat (v : Option RawOp) : (s.setSlot v).stat = s.stat := rfl
@[simp] theorem State.setSlot_raw (v : Option RawOp) : (s.setSlot v).raw = s.raw := rfl
@[simp] theorem State.setSlot_result (v : Option RawOp) : (s.setSlot v).result = s.result := rfl
@[simp] theorem State.setSlot_st (v : Option RawOp) : (s.setSlot v).st = s.st := rfl
@[simp] theorem State.setSlot_rd (v : Option RawOp) : (s.setSlot v).rd = s.rd := rfl
@[simp] theorem State.setSlot_port (v : Option RawOp) : (s.setSlot v).port = s.port := rfl
@[simp] theorem State.setSlot_hostIn (v : Option RawOp) : (s.setSlot v).hostIn = s.hostIn := rfl
@[simp] theorem State.setSlot_answers (v : Option RawOp) : (s.setSlot v).answers = s.answers := rfl
@[simp] theorem State.setSlot_draws (v : Option RawOp) : (s.setSlot v).draws = s.draws := rfl
@[simp] theorem State.setSlot_trace (v : Option RawOp) : (s.setSlot v).trace = s.trace := rfl
@[simp] theorem State.setSlot_slot (v : Option RawOp) : (s.setSlot v).slot = v := rfl

@[simp] theorem State.setOracle_cfg (ws : List Word) (k : Nat) : (s.setOracle ws k).cfg = s.cfg := rfl
@[simp] theorem State.setOracle_acq (ws : List Word) (k : Nat) : (s.setOracle ws k).acq = s.acq := rfl
@[simp] theorem State.setOracle_pos (ws : List Word) (k : Nat) : (s.setOracle ws k).pos = s.pos := rfl
@[simp] theorem State.setOracle_scr (ws : List Word) (k : Nat) : (s.setOracle ws k).scr = s.scr := rfl
@[simp] theorem State.setOracle_stat (ws : List Word) (k : Nat) : (s.setOracle ws k).stat = s.stat := rfl
@[simp] theorem State.setOracle_raw (ws : List Word) (k : Nat) : (s.setOracle ws k).raw = s.raw := rfl
@[simp] theorem State.setOracle_result (ws : List Word) (k : Nat) : (s.setOracle ws k).result = s.result := rfl
@[simp] theorem State.setOracle_st (ws : List Word) (k : Nat) : (s.setOracle ws k).st = s.st := rfl
@[simp] theorem State.setOracle_rd (ws : List Word) (k : Nat) : (s.setOracle ws k).rd = s.rd := rfl
@[simp] theorem State.setOracle_port (ws : List Word) (k : Nat) : (s.setOracle ws k).port = s.port := rfl
@[simp] theorem State.setOracle_hostIn (ws : List Word) (k : Nat) : (s.setOracle ws k).hostIn = s.hostIn := rfl
@[simp] theorem State.setOracle_answers (ws : List Word) (k : Nat) : (s.setOracle ws k).answers = ws := rfl
@[simp] theorem State.setOracle_draws (ws : List Word) (k : Nat) : (s.setOracle ws k).draws = k := rfl
@[simp] theorem State.setOracle_trace (ws : List Word) (k : Nat) : (s.setOracle ws k).trace = s.trace := rfl
@[simp] theorem State.setOracle_slot (ws : List Word) (k : Nat) : (s.setOracle ws k).slot = s.slot := rfl

@[simp] theorem State.record_cfg (e : Event) : (s.record e).cfg = s.cfg := rfl
@[simp] theorem State.record_acq (e : Event) : (s.record e).acq = s.acq := rfl
@[simp] theorem State.record_pos (e : Event) : (s.record e).pos = s.pos := rfl
@[simp] theorem State.record_scr (e : Event) : (s.record e).scr = s.scr := rfl
@[simp] theorem State.record_stat (e : Event) : (s.record e).stat = s.stat := rfl
@[simp] theorem State.record_raw (e : Event) : (s.record e).raw = s.raw := rfl
@[simp] theorem State.record_result (e : Event) : (s.record e).result = s.result := rfl
@[simp] theorem State.record_st (e : Event) : (s.record e).st = s.st := rfl
@[simp] theorem State.record_rd (e : Event) : (s.record e).rd = s.rd := rfl
@[simp] theorem State.record_port (e : Event) : (s.record e).port = s.port := rfl
@[simp] theorem State.record_hostIn (e : Event) : (s.record e).hostIn = s.hostIn := rfl
@[simp] theorem State.record_answers (e : Event) : (s.record e).answers = s.answers := rfl
@[simp] theorem State.record_draws (e : Event) : (s.record e).draws = s.draws := rfl
@[simp] theorem State.record_trace (e : Event) : (s.record e).trace = e :: s.trace := rfl
@[simp] theorem State.record_slot (e : Event) : (s.record e).slot = s.slot := rfl

@[simp] theorem State.atTrans_cfg (l : Option TransLabel) : (s.atTrans l).cfg = s.cfg := rfl
@[simp] theorem State.atTrans_acq (l : Option TransLabel) : (s.atTrans l).acq = s.acq := rfl
@[simp] theorem State.atTrans_pos (l : Option TransLabel) : (s.atTrans l).pos = { s.pos with trans := l } := rfl
@[simp] theorem State.atTrans_scr (l : Option TransLabel) : (s.atTrans l).scr = s.scr := rfl
@[simp] theorem State.atTrans_stat (l : Option TransLabel) : (s.atTrans l).stat = s.stat := rfl
@[simp] theorem State.atTrans_raw (l : Option TransLabel) : (s.atTrans l).raw = s.raw := rfl
@[simp] theorem State.atTrans_result (l : Option TransLabel) : (s.atTrans l).result = s.result := rfl
@[simp] theorem State.atTrans_st (l : Option TransLabel) : (s.atTrans l).st = s.st := rfl
@[simp] theorem State.atTrans_rd (l : Option TransLabel) : (s.atTrans l).rd = s.rd := rfl
@[simp] theorem State.atTrans_port (l : Option TransLabel) : (s.atTrans l).port = s.port := rfl
@[simp] theorem State.atTrans_hostIn (l : Option TransLabel) : (s.atTrans l).hostIn = s.hostIn := rfl
@[simp] theorem State.atTrans_answers (l : Option TransLabel) : (s.atTrans l).answers = s.answers := rfl
@[simp] theorem State.atTrans_draws (l : Option TransLabel) : (s.atTrans l).draws = s.draws := rfl
@[simp] theorem State.atTrans_trace (l : Option TransLabel) : (s.atTrans l).trace = s.trace := rfl
@[simp] theorem State.atTrans_slot (l : Option TransLabel) : (s.atTrans l).slot = s.slot := rfl

@[simp] theorem State.atProto_cfg (l : Option ProtoLabel) : (s.atProto l).cfg = s.cfg := rfl
@[simp] theorem State.atProto_acq (l : Option ProtoLabel) : (s.atProto l).acq = s.acq := rfl
@[simp] theorem State.atProto_pos (l : Option ProtoLabel) : (s.atProto l).pos = { s.pos with proto := l } := rfl
@[simp] theorem State.atProto_scr (l : Option ProtoLabel) : (s.atProto l).scr = s.scr := rfl
@[simp] theorem State.atProto_stat (l : Option ProtoLabel) : (s.atProto l).stat = s.stat := rfl
@[simp] theorem State.atProto_raw (l : Option ProtoLabel) : (s.atProto l).raw = s.raw := rfl
@[simp] theorem State.atProto_result (l : Option ProtoLabel) : (s.atProto l).result = s.result := rfl
@[simp] theorem State.atProto_st (l : Option ProtoLabel) : (s.atProto l).st = s.st := rfl
@[simp] theorem State.atProto_rd (l : Option ProtoLabel) : (s.atProto l).rd = s.rd := rfl
@[simp] theorem State.atProto_port (l : Option ProtoLabel) : (s.atProto l).port = s.port := rfl
@[simp] theorem State.atProto_hostIn (l : Option ProtoLabel) : (s.atProto l).hostIn = s.hostIn := rfl
@[simp] theorem State.atProto_answers (l : Option ProtoLabel) : (s.atProto l).answers = s.answers := rfl
@[simp] theorem State.atProto_draws (l : Option ProtoLabel) : (s.atProto l).draws = s.draws := rfl
@[simp] theorem State.atProto_trace (l : Option ProtoLabel) : (s.atProto l).trace = s.trace := rfl
@[simp] theorem State.atProto_slot (l : Option ProtoLabel) : (s.atProto l).slot = s.slot := rfl

@[simp] theorem State.atHost_cfg (l : Option HostLabel) : (s.atHost l).cfg = s.cfg := rfl
@[simp] theorem State.atHost_acq (l : Option HostLabel) : (s.atHost l).acq = s.acq := rfl
@[simp] theorem State.atHost_pos (l : Option HostLabel) : (s.atHost l).pos = { s.pos with host := l } := rfl
@[simp] theorem State.atHost_scr (l : Option HostLabel) : (s.atHost l).scr = s.scr := rfl
@[simp] theorem State.atHost_stat (l : Option HostLabel) : (s.atHost l).stat = s.stat := rfl
@[simp] theorem State.atHost_raw (l : Option HostLabel) : (s.atHost l).raw = s.raw := rfl
@[simp] theorem State.atHost_result (l : Option HostLabel) : (s.atHost l).result = s.result := rfl
@[simp] theorem State.atHost_st (l : Option HostLabel) : (s.atHost l).st = s.st := rfl
@[simp] theorem State.atHost_rd (l : Option HostLabel) : (s.atHost l).rd = s.rd := rfl
@[simp] theorem State.atHost_port (l : Option HostLabel) : (s.atHost l).port = s.port := rfl
@[simp] theorem State.atHost_hostIn (l : Option HostLabel) : (s.atHost l).hostIn = s.hostIn := rfl
@[simp] theorem State.atHost_answers (l : Option HostLabel) : (s.atHost l).answers = s.answers := rfl
@[simp] theorem State.atHost_draws (l : Option HostLabel) : (s.atHost l).draws = s.draws := rfl
@[simp] theorem State.atHost_trace (l : Option HostLabel) : (s.atHost l).trace = s.trace := rfl
@[simp] theorem State.atHost_slot (l : Option HostLabel) : (s.atHost l).slot = s.slot := rfl

@[simp] theorem State.atLeaf_cfg (l : Option LeafLabel) : (s.atLeaf l).cfg = s.cfg := rfl
@[simp] theorem State.atLeaf_acq (l : Option LeafLabel) : (s.atLeaf l).acq = s.acq := rfl
@[simp] theorem State.atLeaf_pos (l : Option LeafLabel) : (s.atLeaf l).pos = { s.pos with leaf := l } := rfl
@[simp] theorem State.atLeaf_scr (l : Option LeafLabel) : (s.atLeaf l).scr = s.scr := rfl
@[simp] theorem State.atLeaf_stat (l : Option LeafLabel) : (s.atLeaf l).stat = s.stat := rfl
@[simp] theorem State.atLeaf_raw (l : Option LeafLabel) : (s.atLeaf l).raw = s.raw := rfl
@[simp] theorem State.atLeaf_result (l : Option LeafLabel) : (s.atLeaf l).result = s.result := rfl
@[simp] theorem State.atLeaf_st (l : Option LeafLabel) : (s.atLeaf l).st = s.st := rfl
@[simp] theorem State.atLeaf_rd (l : Option LeafLabel) : (s.atLeaf l).rd = s.rd := rfl
@[simp] theorem State.atLeaf_port (l : Option LeafLabel) : (s.atLeaf l).port = s.port := rfl
@[simp] theorem State.atLeaf_hostIn (l : Option LeafLabel) : (s.atLeaf l).hostIn = s.hostIn := rfl
@[simp] theorem State.atLeaf_answers (l : Option LeafLabel) : (s.atLeaf l).answers = s.answers := rfl
@[simp] theorem State.atLeaf_draws (l : Option LeafLabel) : (s.atLeaf l).draws = s.draws := rfl
@[simp] theorem State.atLeaf_trace (l : Option LeafLabel) : (s.atLeaf l).trace = s.trace := rfl
@[simp] theorem State.atLeaf_slot (l : Option LeafLabel) : (s.atLeaf l).slot = s.slot := rfl

end Sys2Proof.Machine
end

