-- ==== Sys2Proof/Laws/Ops.lean ====
section
/-! SUPPORT. One lemma for each field and each shared operation: all an operation can do, said once. -/
namespace Sys2Proof.Machine

variable (s : State)

/-- With an answer waiting, a read returns it. -/
@[simp] theorem nextAnswer_cons {s : State} {w : Word} {ws : List Word} (h : s.answers = w :: ws) : nextAnswer s = w := by
  simp [nextAnswer, h]

@[simp] theorem afterDraw_cfg : (afterDraw s).cfg = s.cfg := rfl
@[simp] theorem afterDraw_acq : (afterDraw s).acq = s.acq := rfl
@[simp] theorem afterDraw_pos : (afterDraw s).pos = s.pos := rfl
@[simp] theorem afterDraw_scr : (afterDraw s).scr = s.scr := rfl
@[simp] theorem afterDraw_stat : (afterDraw s).stat = s.stat := rfl
@[simp] theorem afterDraw_raw : (afterDraw s).raw = s.raw := rfl
@[simp] theorem afterDraw_result : (afterDraw s).result = s.result := rfl
@[simp] theorem afterDraw_st : (afterDraw s).st = s.st := rfl
@[simp] theorem afterDraw_rd : (afterDraw s).rd = s.rd := rfl
@[simp] theorem afterDraw_port : (afterDraw s).port = s.port := rfl
@[simp] theorem afterDraw_hostIn : (afterDraw s).hostIn = s.hostIn := rfl
@[simp] theorem afterDraw_answers : (afterDraw s).answers = s.answers.tail := rfl
@[simp] theorem afterDraw_draws : (afterDraw s).draws = s.draws + 1 := rfl
@[simp] theorem afterDraw_trace : (afterDraw s).trace = s.trace := rfl
@[simp] theorem afterDraw_slot : (afterDraw s).slot = s.slot := rfl

@[simp] theorem memRead_cfg (c : ReadChan) (a : Word) : (memRead c a s).cfg = s.cfg := rfl
@[simp] theorem memRead_acq (c : ReadChan) (a : Word) : (memRead c a s).acq = s.acq := rfl
@[simp] theorem memRead_pos (c : ReadChan) (a : Word) : (memRead c a s).pos = s.pos := rfl
@[simp] theorem memRead_scr (c : ReadChan) (a : Word) : (memRead c a s).scr = s.scr := rfl
@[simp] theorem memRead_stat (c : ReadChan) (a : Word) : (memRead c a s).stat = s.stat := rfl
@[simp] theorem memRead_raw (c : ReadChan) (a : Word) : (memRead c a s).raw = s.raw := rfl
@[simp] theorem memRead_result (c : ReadChan) (a : Word) : (memRead c a s).result = s.result := rfl
@[simp] theorem memRead_st (c : ReadChan) (a : Word) : (memRead c a s).st = s.st := rfl
@[simp] theorem memRead_rd (c : ReadChan) (a : Word) : (memRead c a s).rd = s.rd := rfl
@[simp] theorem memRead_port (c : ReadChan) (a : Word) : (memRead c a s).port = s.port := rfl
@[simp] theorem memRead_hostIn (c : ReadChan) (a : Word) : (memRead c a s).hostIn = s.hostIn := rfl
@[simp] theorem memRead_answers (c : ReadChan) (a : Word) : (memRead c a s).answers = s.answers.tail := rfl
@[simp] theorem memRead_draws (c : ReadChan) (a : Word) : (memRead c a s).draws = s.draws + 1 := rfl
@[simp] theorem memRead_trace (c : ReadChan) (a : Word) : (memRead c a s).trace = .read c a (nextAnswer s) :: s.trace := rfl
@[simp] theorem memRead_slot (c : ReadChan) (a : Word) : (memRead c a s).slot = s.slot := rfl

@[simp] theorem memWrite_cfg (c : WriteChan) (a w : Word) : (memWrite c a w s).cfg = s.cfg := rfl
@[simp] theorem memWrite_acq (c : WriteChan) (a w : Word) : (memWrite c a w s).acq = s.acq := rfl
@[simp] theorem memWrite_pos (c : WriteChan) (a w : Word) : (memWrite c a w s).pos = s.pos := rfl
@[simp] theorem memWrite_scr (c : WriteChan) (a w : Word) : (memWrite c a w s).scr = s.scr := rfl
@[simp] theorem memWrite_stat (c : WriteChan) (a w : Word) : (memWrite c a w s).stat = s.stat := rfl
@[simp] theorem memWrite_raw (c : WriteChan) (a w : Word) : (memWrite c a w s).raw = s.raw := rfl
@[simp] theorem memWrite_result (c : WriteChan) (a w : Word) : (memWrite c a w s).result = s.result := rfl
@[simp] theorem memWrite_st (c : WriteChan) (a w : Word) : (memWrite c a w s).st = s.st := rfl
@[simp] theorem memWrite_rd (c : WriteChan) (a w : Word) : (memWrite c a w s).rd = s.rd := rfl
@[simp] theorem memWrite_port (c : WriteChan) (a w : Word) : (memWrite c a w s).port = s.port := rfl
@[simp] theorem memWrite_hostIn (c : WriteChan) (a w : Word) : (memWrite c a w s).hostIn = s.hostIn := rfl
@[simp] theorem memWrite_answers (c : WriteChan) (a w : Word) : (memWrite c a w s).answers = s.answers := rfl
@[simp] theorem memWrite_draws (c : WriteChan) (a w : Word) : (memWrite c a w s).draws = s.draws := rfl
@[simp] theorem memWrite_trace (c : WriteChan) (a w : Word) : (memWrite c a w s).trace = .write c a w :: s.trace := rfl
@[simp] theorem memWrite_slot (c : WriteChan) (a w : Word) : (memWrite c a w s).slot = s.slot := rfl

@[simp] theorem endPrimitive_cfg : (endPrimitive s).cfg = s.cfg := rfl
@[simp] theorem endPrimitive_acq : (endPrimitive s).acq = s.acq := rfl
@[simp] theorem endPrimitive_pos : (endPrimitive s).pos = s.pos := rfl
@[simp] theorem endPrimitive_scr : (endPrimitive s).scr = s.scr := rfl
@[simp] theorem endPrimitive_stat : (endPrimitive s).stat = endPrimitiveFlags s.scr.e s.scr.x s.stat := rfl
@[simp] theorem endPrimitive_raw : (endPrimitive s).raw = s.raw := rfl
@[simp] theorem endPrimitive_result : (endPrimitive s).result = s.result := rfl
@[simp] theorem endPrimitive_st : (endPrimitive s).st = s.st := rfl
@[simp] theorem endPrimitive_rd : (endPrimitive s).rd = s.rd := rfl
@[simp] theorem endPrimitive_port : (endPrimitive s).port = s.port := rfl
@[simp] theorem endPrimitive_hostIn : (endPrimitive s).hostIn = s.hostIn := rfl
@[simp] theorem endPrimitive_answers : (endPrimitive s).answers = s.answers := rfl
@[simp] theorem endPrimitive_draws : (endPrimitive s).draws = s.draws := rfl
@[simp] theorem endPrimitive_trace : (endPrimitive s).trace = s.trace := rfl
@[simp] theorem endPrimitive_slot : (endPrimitive s).slot = s.slot := rfl

@[simp] theorem rdStatus_cfg : (rdStatus s).cfg = s.cfg := rfl
@[simp] theorem rdStatus_acq : (rdStatus s).acq = s.acq := rfl
@[simp] theorem rdStatus_pos : (rdStatus s).pos = s.pos := rfl
@[simp] theorem rdStatus_scr : (rdStatus s).scr = s.scr := rfl
@[simp] theorem rdStatus_stat : (rdStatus s).stat = s.stat := rfl
@[simp] theorem rdStatus_raw : (rdStatus s).raw = s.raw := rfl
@[simp] theorem rdStatus_result : (rdStatus s).result = s.result := rfl
@[simp] theorem rdStatus_st : (rdStatus s).st = statusOf s.cfg.layout (nextAnswer s) := rfl
@[simp] theorem rdStatus_rd : (rdStatus s).rd = s.rd := rfl
@[simp] theorem rdStatus_port : (rdStatus s).port = s.port := rfl
@[simp] theorem rdStatus_hostIn : (rdStatus s).hostIn = s.hostIn := rfl
@[simp] theorem rdStatus_answers : (rdStatus s).answers = s.answers.tail := rfl
@[simp] theorem rdStatus_draws : (rdStatus s).draws = s.draws + 1 := rfl
@[simp] theorem rdStatus_trace : (rdStatus s).trace = .read .status s.cfg.addrStatus (nextAnswer s) :: s.trace := rfl
@[simp] theorem rdStatus_slot : (rdStatus s).slot = s.slot := rfl

@[simp] theorem wrAddr_cfg (a : BitVec 7) (d : Dir) : (wrAddr a d s).cfg = s.cfg := rfl
@[simp] theorem wrAddr_acq (a : BitVec 7) (d : Dir) : (wrAddr a d s).acq = s.acq := rfl
@[simp] theorem wrAddr_pos (a : BitVec 7) (d : Dir) : (wrAddr a d s).pos = s.pos := rfl
@[simp] theorem wrAddr_scr (a : BitVec 7) (d : Dir) : (wrAddr a d s).scr = s.scr := rfl
@[simp] theorem wrAddr_stat (a : BitVec 7) (d : Dir) : (wrAddr a d s).stat = s.stat := rfl
@[simp] theorem wrAddr_raw (a : BitVec 7) (d : Dir) : (wrAddr a d s).raw = s.raw := rfl
@[simp] theorem wrAddr_result (a : BitVec 7) (d : Dir) : (wrAddr a d s).result = s.result := rfl
@[simp] theorem wrAddr_st (a : BitVec 7) (d : Dir) : (wrAddr a d s).st = s.st := rfl
@[simp] theorem wrAddr_rd (a : BitVec 7) (d : Dir) : (wrAddr a d s).rd = s.rd := rfl
@[simp] theorem wrAddr_port (a : BitVec 7) (d : Dir) : (wrAddr a d s).port = { s.port with addr := a, dir := d } := rfl
@[simp] theorem wrAddr_hostIn (a : BitVec 7) (d : Dir) : (wrAddr a d s).hostIn = s.hostIn := rfl
@[simp] theorem wrAddr_answers (a : BitVec 7) (d : Dir) : (wrAddr a d s).answers = s.answers := rfl
@[simp] theorem wrAddr_draws (a : BitVec 7) (d : Dir) : (wrAddr a d s).draws = s.draws := rfl
@[simp] theorem wrAddr_trace (a : BitVec 7) (d : Dir) : (wrAddr a d s).trace = .write .addr s.cfg.addrSA (addrWord s.cfg.layout a d) :: s.trace := rfl
@[simp] theorem wrAddr_slot (a : BitVec 7) (d : Dir) : (wrAddr a d s).slot = s.slot := rfl

@[simp] theorem wrData_cfg (b : Byte) : (wrData b s).cfg = s.cfg := rfl
@[simp] theorem wrData_acq (b : Byte) : (wrData b s).acq = s.acq := rfl
@[simp] theorem wrData_pos (b : Byte) : (wrData b s).pos = s.pos := rfl
@[simp] theorem wrData_scr (b : Byte) : (wrData b s).scr = s.scr := rfl
@[simp] theorem wrData_stat (b : Byte) : (wrData b s).stat = s.stat := rfl
@[simp] theorem wrData_raw (b : Byte) : (wrData b s).raw = s.raw := rfl
@[simp] theorem wrData_result (b : Byte) : (wrData b s).result = s.result := rfl
@[simp] theorem wrData_st (b : Byte) : (wrData b s).st = s.st := rfl
@[simp] theorem wrData_rd (b : Byte) : (wrData b s).rd = s.rd := rfl
@[simp] theorem wrData_port (b : Byte) : (wrData b s).port = { s.port with byte := b } := rfl
@[simp] theorem wrData_hostIn (b : Byte) : (wrData b s).hostIn = s.hostIn := rfl
@[simp] theorem wrData_answers (b : Byte) : (wrData b s).answers = s.answers := rfl
@[simp] theorem wrData_draws (b : Byte) : (wrData b s).draws = s.draws := rfl
@[simp] theorem wrData_trace (b : Byte) : (wrData b s).trace = .write .data s.cfg.addrDR (dataWord s.cfg.layout b) :: s.trace := rfl
@[simp] theorem wrData_slot (b : Byte) : (wrData b s).slot = s.slot := rfl

@[simp] theorem launch_cfg (c : BitVec 4) : (launch c s).cfg = s.cfg := rfl
@[simp] theorem launch_acq (c : BitVec 4) : (launch c s).acq = s.acq := rfl
@[simp] theorem launch_pos (c : BitVec 4) : (launch c s).pos = s.pos := rfl
@[simp] theorem launch_scr (c : BitVec 4) : (launch c s).scr = s.scr := rfl
@[simp] theorem launch_stat (c : BitVec 4) : (launch c s).stat = s.stat := rfl
@[simp] theorem launch_raw (c : BitVec 4) : (launch c s).raw = s.raw := rfl
@[simp] theorem launch_result (c : BitVec 4) : (launch c s).result = s.result := rfl
@[simp] theorem launch_st (c : BitVec 4) : (launch c s).st = s.st := rfl
@[simp] theorem launch_rd (c : BitVec 4) : (launch c s).rd = s.rd := rfl
@[simp] theorem launch_port (c : BitVec 4) : (launch c s).port = s.port := rfl
@[simp] theorem launch_hostIn (c : BitVec 4) : (launch c s).hostIn = s.hostIn := rfl
@[simp] theorem launch_answers (c : BitVec 4) : (launch c s).answers = s.answers := rfl
@[simp] theorem launch_draws (c : BitVec 4) : (launch c s).draws = s.draws := rfl
@[simp] theorem launch_trace (c : BitVec 4) : (launch c s).trace = .launch s.cfg.addrCtl (ctlWord s.cfg.layout c) (bcwOf s.port.dir c) s.port.addr s.port.byte :: s.trace := rfl
@[simp] theorem launch_slot (c : BitVec 4) : (launch c s).slot = s.slot := rfl

@[simp] theorem rdData_cfg : (rdData s).cfg = s.cfg := rfl
@[simp] theorem rdData_acq : (rdData s).acq = s.acq := rfl
@[simp] theorem rdData_pos : (rdData s).pos = s.pos := rfl
@[simp] theorem rdData_scr : (rdData s).scr = s.scr := rfl
@[simp] theorem rdData_stat : (rdData s).stat = s.stat := rfl
@[simp] theorem rdData_raw : (rdData s).raw = s.raw := rfl
@[simp] theorem rdData_result : (rdData s).result = s.result := rfl
@[simp] theorem rdData_st : (rdData s).st = s.st := rfl
@[simp] theorem rdData_rd : (rdData s).rd = byteOf s.cfg.layout (nextAnswer s) := rfl
@[simp] theorem rdData_port : (rdData s).port = s.port := rfl
@[simp] theorem rdData_hostIn : (rdData s).hostIn = s.hostIn := rfl
@[simp] theorem rdData_answers : (rdData s).answers = s.answers.tail := rfl
@[simp] theorem rdData_draws : (rdData s).draws = s.draws + 1 := rfl
@[simp] theorem rdData_trace : (rdData s).trace = .read .data s.cfg.addrDR (nextAnswer s) :: s.trace := rfl
@[simp] theorem rdData_slot : (rdData s).slot = s.slot := rfl

@[simp] theorem rdPin_cfg : (rdPin s).cfg = s.cfg := rfl
@[simp] theorem rdPin_acq : (rdPin s).acq = s.acq := rfl
@[simp] theorem rdPin_pos : (rdPin s).pos = s.pos := rfl
@[simp] theorem rdPin_scr : (rdPin s).scr = { s.scr with p := pinOf s.cfg.pinMask (nextAnswer s) } := rfl
@[simp] theorem rdPin_stat : (rdPin s).stat = s.stat := rfl
@[simp] theorem rdPin_raw : (rdPin s).raw = s.raw := rfl
@[simp] theorem rdPin_result : (rdPin s).result = s.result := rfl
@[simp] theorem rdPin_st : (rdPin s).st = s.st := rfl
@[simp] theorem rdPin_rd : (rdPin s).rd = s.rd := rfl
@[simp] theorem rdPin_port : (rdPin s).port = s.port := rfl
@[simp] theorem rdPin_hostIn : (rdPin s).hostIn = s.hostIn := rfl
@[simp] theorem rdPin_answers : (rdPin s).answers = s.answers.tail := rfl
@[simp] theorem rdPin_draws : (rdPin s).draws = s.draws + 1 := rfl
@[simp] theorem rdPin_trace : (rdPin s).trace = .read .pin s.cfg.pinAddr (nextAnswer s) :: s.trace := rfl
@[simp] theorem rdPin_slot : (rdPin s).slot = s.slot := rfl

@[simp] theorem waitIdlePass_cfg : (waitIdlePass s).cfg = s.cfg := rfl
@[simp] theorem waitIdlePass_acq : (waitIdlePass s).acq = s.acq := rfl
@[simp] theorem waitIdlePass_pos : (waitIdlePass s).pos = { s.pos with leaf := if (statusOf s.cfg.layout (nextAnswer s)).busy then some .waitIdle else none } := rfl
@[simp] theorem waitIdlePass_scr : (waitIdlePass s).scr = s.scr := rfl
@[simp] theorem waitIdlePass_stat : (waitIdlePass s).stat = s.stat := rfl
@[simp] theorem waitIdlePass_raw : (waitIdlePass s).raw = s.raw := rfl
@[simp] theorem waitIdlePass_result : (waitIdlePass s).result = s.result := rfl
@[simp] theorem waitIdlePass_st : (waitIdlePass s).st = statusOf s.cfg.layout (nextAnswer s) := rfl
@[simp] theorem waitIdlePass_rd : (waitIdlePass s).rd = s.rd := rfl
@[simp] theorem waitIdlePass_port : (waitIdlePass s).port = s.port := rfl
@[simp] theorem waitIdlePass_hostIn : (waitIdlePass s).hostIn = s.hostIn := rfl
@[simp] theorem waitIdlePass_answers : (waitIdlePass s).answers = s.answers.tail := rfl
@[simp] theorem waitIdlePass_draws : (waitIdlePass s).draws = s.draws + 1 := rfl
@[simp] theorem waitIdlePass_trace : (waitIdlePass s).trace = .read .status s.cfg.addrStatus (nextAnswer s) :: s.trace := rfl
@[simp] theorem waitIdlePass_slot : (waitIdlePass s).slot = s.slot := rfl

@[simp] theorem errSample_cfg : (errSample s).cfg = s.cfg := rfl
@[simp] theorem errSample_acq : (errSample s).acq = s.acq := rfl
@[simp] theorem errSample_pos : (errSample s).pos = s.pos := rfl
@[simp] theorem errSample_scr : (errSample s).scr = { s.scr with e := errorBits (statusOf s.cfg.layout (nextAnswer s)) } := rfl
@[simp] theorem errSample_stat : (errSample s).stat = s.stat := rfl
@[simp] theorem errSample_raw : (errSample s).raw = s.raw := rfl
@[simp] theorem errSample_result : (errSample s).result = s.result := rfl
@[simp] theorem errSample_st : (errSample s).st = statusOf s.cfg.layout (nextAnswer s) := rfl
@[simp] theorem errSample_rd : (errSample s).rd = s.rd := rfl
@[simp] theorem errSample_port : (errSample s).port = s.port := rfl
@[simp] theorem errSample_hostIn : (errSample s).hostIn = s.hostIn := rfl
@[simp] theorem errSample_answers : (errSample s).answers = s.answers.tail := rfl
@[simp] theorem errSample_draws : (errSample s).draws = s.draws + 1 := rfl
@[simp] theorem errSample_trace : (errSample s).trace = .read .status s.cfg.addrStatus (nextAnswer s) :: s.trace := rfl
@[simp] theorem errSample_slot : (errSample s).slot = s.slot := rfl

@[simp] theorem waitDonePass_cfg : (waitDonePass s).cfg = s.cfg := rfl
@[simp] theorem waitDonePass_acq : (waitDonePass s).acq = s.acq := rfl
@[simp] theorem waitDonePass_pos : (waitDonePass s).pos = { s.pos with leaf := if pinOf s.cfg.pinMask (nextAnswer s) == s.cfg.busyLevel then some .waitDone else none } := rfl
@[simp] theorem waitDonePass_scr : (waitDonePass s).scr = { s.scr with p := pinOf s.cfg.pinMask (nextAnswer s) } := rfl
@[simp] theorem waitDonePass_stat : (waitDonePass s).stat = s.stat := rfl
@[simp] theorem waitDonePass_raw : (waitDonePass s).raw = s.raw := rfl
@[simp] theorem waitDonePass_result : (waitDonePass s).result = s.result := rfl
@[simp] theorem waitDonePass_st : (waitDonePass s).st = s.st := rfl
@[simp] theorem waitDonePass_rd : (waitDonePass s).rd = s.rd := rfl
@[simp] theorem waitDonePass_port : (waitDonePass s).port = s.port := rfl
@[simp] theorem waitDonePass_hostIn : (waitDonePass s).hostIn = s.hostIn := rfl
@[simp] theorem waitDonePass_answers : (waitDonePass s).answers = s.answers.tail := rfl
@[simp] theorem waitDonePass_draws : (waitDonePass s).draws = s.draws + 1 := rfl
@[simp] theorem waitDonePass_trace : (waitDonePass s).trace = .read .pin s.cfg.pinAddr (nextAnswer s) :: s.trace := rfl
@[simp] theorem waitDonePass_slot : (waitDonePass s).slot = s.slot := rfl

@[simp] theorem callSendWord_cfg (p : Byte) (w : Half) : (callSendWord p w s).cfg = s.cfg := rfl
@[simp] theorem callSendWord_acq (p : Byte) (w : Half) : (callSendWord p w s).acq = s.acq := rfl
@[simp] theorem callSendWord_pos (p : Byte) (w : Half) : (callSendWord p w s).pos = { s.pos with trans := some .sW0 } := rfl
@[simp] theorem callSendWord_scr (p : Byte) (w : Half) : (callSendWord p w s).scr = { s.scr with tx0 := p, tx1 := hiByte w, tx2 := loByte w, n := 3 } := rfl
@[simp] theorem callSendWord_stat (p : Byte) (w : Half) : (callSendWord p w s).stat = s.stat := rfl
@[simp] theorem callSendWord_raw (p : Byte) (w : Half) : (callSendWord p w s).raw = s.raw := rfl
@[simp] theorem callSendWord_result (p : Byte) (w : Half) : (callSendWord p w s).result = s.result := rfl
@[simp] theorem callSendWord_st (p : Byte) (w : Half) : (callSendWord p w s).st = s.st := rfl
@[simp] theorem callSendWord_rd (p : Byte) (w : Half) : (callSendWord p w s).rd = s.rd := rfl
@[simp] theorem callSendWord_port (p : Byte) (w : Half) : (callSendWord p w s).port = s.port := rfl
@[simp] theorem callSendWord_hostIn (p : Byte) (w : Half) : (callSendWord p w s).hostIn = s.hostIn := rfl
@[simp] theorem callSendWord_answers (p : Byte) (w : Half) : (callSendWord p w s).answers = s.answers := rfl
@[simp] theorem callSendWord_draws (p : Byte) (w : Half) : (callSendWord p w s).draws = s.draws := rfl
@[simp] theorem callSendWord_trace (p : Byte) (w : Half) : (callSendWord p w s).trace = s.trace := rfl
@[simp] theorem callSendWord_slot (p : Byte) (w : Half) : (callSendWord p w s).slot = s.slot := rfl

@[simp] theorem enterRecv2_cfg : (enterRecv2 s).cfg = s.cfg := rfl
@[simp] theorem enterRecv2_acq : (enterRecv2 s).acq = s.acq := rfl
@[simp] theorem enterRecv2_pos : (enterRecv2 s).pos = { s.pos with trans := some .rW0 } := rfl
@[simp] theorem enterRecv2_scr : (enterRecv2 s).scr = { s.scr with att := 1 } := rfl
@[simp] theorem enterRecv2_stat : (enterRecv2 s).stat = s.stat := rfl
@[simp] theorem enterRecv2_raw : (enterRecv2 s).raw = s.raw := rfl
@[simp] theorem enterRecv2_result : (enterRecv2 s).result = s.result := rfl
@[simp] theorem enterRecv2_st : (enterRecv2 s).st = s.st := rfl
@[simp] theorem enterRecv2_rd : (enterRecv2 s).rd = s.rd := rfl
@[simp] theorem enterRecv2_port : (enterRecv2 s).port = s.port := rfl
@[simp] theorem enterRecv2_hostIn : (enterRecv2 s).hostIn = s.hostIn := rfl
@[simp] theorem enterRecv2_answers : (enterRecv2 s).answers = s.answers := rfl
@[simp] theorem enterRecv2_draws : (enterRecv2 s).draws = s.draws := rfl
@[simp] theorem enterRecv2_trace : (enterRecv2 s).trace = s.trace := rfl
@[simp] theorem enterRecv2_slot : (enterRecv2 s).slot = s.slot := rfl

@[simp] theorem accept_cfg (op : HostOp) : (accept op s).cfg = s.cfg := rfl
@[simp] theorem accept_acq (op : HostOp) : (accept op s).acq = s.acq := rfl
@[simp] theorem accept_pos (op : HostOp) : (accept op s).pos = { s.pos with curOp := some op } := rfl
@[simp] theorem accept_scr (op : HostOp) : (accept op s).scr = s.scr := rfl
@[simp] theorem accept_stat (op : HostOp) : (accept op s).stat = acceptFlags s.stat := rfl
@[simp] theorem accept_raw (op : HostOp) : (accept op s).raw = s.raw := rfl
@[simp] theorem accept_result (op : HostOp) : (accept op s).result = s.result := rfl
@[simp] theorem accept_st (op : HostOp) : (accept op s).st = s.st := rfl
@[simp] theorem accept_rd (op : HostOp) : (accept op s).rd = s.rd := rfl
@[simp] theorem accept_port (op : HostOp) : (accept op s).port = s.port := rfl
@[simp] theorem accept_hostIn (op : HostOp) : (accept op s).hostIn = s.hostIn := rfl
@[simp] theorem accept_answers (op : HostOp) : (accept op s).answers = s.answers := rfl
@[simp] theorem accept_draws (op : HostOp) : (accept op s).draws = s.draws := rfl
@[simp] theorem accept_trace (op : HostOp) : (accept op s).trace = s.trace := rfl
@[simp] theorem accept_slot (op : HostOp) : (accept op s).slot = s.slot := rfl

@[simp] theorem overrun_cfg : (overrun s).cfg = s.cfg := rfl
@[simp] theorem overrun_acq : (overrun s).acq = s.acq := rfl
@[simp] theorem overrun_pos : (overrun s).pos = s.pos := rfl
@[simp] theorem overrun_scr : (overrun s).scr = s.scr := rfl
@[simp] theorem overrun_stat : (overrun s).stat = overrunFlags s.stat := rfl
@[simp] theorem overrun_raw : (overrun s).raw = s.raw := rfl
@[simp] theorem overrun_result : (overrun s).result = s.result := rfl
@[simp] theorem overrun_st : (overrun s).st = s.st := rfl
@[simp] theorem overrun_rd : (overrun s).rd = s.rd := rfl
@[simp] theorem overrun_port : (overrun s).port = s.port := rfl
@[simp] theorem overrun_hostIn : (overrun s).hostIn = s.hostIn := rfl
@[simp] theorem overrun_answers : (overrun s).answers = s.answers := rfl
@[simp] theorem overrun_draws : (overrun s).draws = s.draws := rfl
@[simp] theorem overrun_trace : (overrun s).trace = s.trace := rfl
@[simp] theorem overrun_slot : (overrun s).slot = s.slot := rfl

@[simp] theorem complete_cfg (r : Bool) : (complete r s).cfg = s.cfg := rfl
@[simp] theorem complete_acq (r : Bool) : (complete r s).acq = s.acq := rfl
@[simp] theorem complete_pos (r : Bool) : (complete r s).pos = { s.pos with curOp := none, host := none } := rfl
@[simp] theorem complete_scr (r : Bool) : (complete r s).scr = s.scr := rfl
@[simp] theorem complete_stat (r : Bool) : (complete r s).stat = completeFlags r s.stat := rfl
@[simp] theorem complete_raw (r : Bool) : (complete r s).raw = s.raw := rfl
@[simp] theorem complete_result (r : Bool) : (complete r s).result = s.result := rfl
@[simp] theorem complete_st (r : Bool) : (complete r s).st = s.st := rfl
@[simp] theorem complete_rd (r : Bool) : (complete r s).rd = s.rd := rfl
@[simp] theorem complete_port (r : Bool) : (complete r s).port = s.port := rfl
@[simp] theorem complete_hostIn (r : Bool) : (complete r s).hostIn = s.hostIn := rfl
@[simp] theorem complete_answers (r : Bool) : (complete r s).answers = s.answers := rfl
@[simp] theorem complete_draws (r : Bool) : (complete r s).draws = s.draws := rfl
@[simp] theorem complete_trace (r : Bool) : (complete r s).trace = .resp r s.result s.raw :: s.trace := rfl
@[simp] theorem complete_slot (r : Bool) : (complete r s).slot = s.slot := rfl

@[simp] theorem takeResult_cfg : (takeResult s).cfg = s.cfg := rfl
@[simp] theorem takeResult_acq : (takeResult s).acq = s.acq := rfl
@[simp] theorem takeResult_pos : (takeResult s).pos = s.pos := rfl
@[simp] theorem takeResult_scr : (takeResult s).scr = { s.scr with rr := received s.scr } := rfl
@[simp] theorem takeResult_stat : (takeResult s).stat = { s.stat with resExh := s.stat.resExh || s.scr.x } := rfl
@[simp] theorem takeResult_raw : (takeResult s).raw = s.raw := rfl
@[simp] theorem takeResult_result : (takeResult s).result = s.result := rfl
@[simp] theorem takeResult_st : (takeResult s).st = s.st := rfl
@[simp] theorem takeResult_rd : (takeResult s).rd = s.rd := rfl
@[simp] theorem takeResult_port : (takeResult s).port = s.port := rfl
@[simp] theorem takeResult_hostIn : (takeResult s).hostIn = s.hostIn := rfl
@[simp] theorem takeResult_answers : (takeResult s).answers = s.answers := rfl
@[simp] theorem takeResult_draws : (takeResult s).draws = s.draws := rfl
@[simp] theorem takeResult_trace : (takeResult s).trace = s.trace := rfl
@[simp] theorem takeResult_slot : (takeResult s).slot = s.slot := rfl

@[simp] theorem takeConfig_cfg : (takeConfig s).cfg = s.cfg := rfl
@[simp] theorem takeConfig_acq : (takeConfig s).acq = s.acq := rfl
@[simp] theorem takeConfig_pos : (takeConfig s).pos = s.pos := rfl
@[simp] theorem takeConfig_scr : (takeConfig s).scr = { s.scr with cfgWord := received s.scr } := rfl
@[simp] theorem takeConfig_stat : (takeConfig s).stat = s.stat := rfl
@[simp] theorem takeConfig_raw : (takeConfig s).raw = s.raw := rfl
@[simp] theorem takeConfig_result : (takeConfig s).result = s.result := rfl
@[simp] theorem takeConfig_st : (takeConfig s).st = s.st := rfl
@[simp] theorem takeConfig_rd : (takeConfig s).rd = s.rd := rfl
@[simp] theorem takeConfig_port : (takeConfig s).port = s.port := rfl
@[simp] theorem takeConfig_hostIn : (takeConfig s).hostIn = s.hostIn := rfl
@[simp] theorem takeConfig_answers : (takeConfig s).answers = s.answers := rfl
@[simp] theorem takeConfig_draws : (takeConfig s).draws = s.draws := rfl
@[simp] theorem takeConfig_trace : (takeConfig s).trace = s.trace := rfl
@[simp] theorem takeConfig_slot : (takeConfig s).slot = s.slot := rfl

@[simp] theorem publish_cfg : (publish s).cfg = s.cfg := rfl
@[simp] theorem publish_acq : (publish s).acq = s.acq := rfl
@[simp] theorem publish_pos : (publish s).pos = s.pos := rfl
@[simp] theorem publish_scr : (publish s).scr = s.scr := rfl
@[simp] theorem publish_stat : (publish s).stat = s.stat := rfl
@[simp] theorem publish_raw : (publish s).raw = s.scr.rr := rfl
@[simp] theorem publish_result : (publish s).result = s.scr.mag.setWidth 32 := rfl
@[simp] theorem publish_st : (publish s).st = s.st := rfl
@[simp] theorem publish_rd : (publish s).rd = s.rd := rfl
@[simp] theorem publish_port : (publish s).port = s.port := rfl
@[simp] theorem publish_hostIn : (publish s).hostIn = s.hostIn := rfl
@[simp] theorem publish_answers : (publish s).answers = s.answers := rfl
@[simp] theorem publish_draws : (publish s).draws = s.draws := rfl
@[simp] theorem publish_trace : (publish s).trace = s.trace := rfl
@[simp] theorem publish_slot : (publish s).slot = s.slot := rfl

@[simp] theorem sendLoop_cfg : (sendLoop s).cfg = s.cfg := rfl
@[simp] theorem sendLoop_acq : (sendLoop s).acq = s.acq := rfl
@[simp] theorem sendLoop_pos : (sendLoop s).pos = { s.pos with trans := some (if s.scr.i < s.scr.n then .sE else .sEF) } := rfl
@[simp] theorem sendLoop_scr : (sendLoop s).scr = s.scr := rfl
@[simp] theorem sendLoop_stat : (sendLoop s).stat = s.stat := rfl
@[simp] theorem sendLoop_raw : (sendLoop s).raw = s.raw := rfl
@[simp] theorem sendLoop_result : (sendLoop s).result = s.result := rfl
@[simp] theorem sendLoop_st : (sendLoop s).st = s.st := rfl
@[simp] theorem sendLoop_rd : (sendLoop s).rd = s.rd := rfl
@[simp] theorem sendLoop_port : (sendLoop s).port = s.port := rfl
@[simp] theorem sendLoop_hostIn : (sendLoop s).hostIn = s.hostIn := rfl
@[simp] theorem sendLoop_answers : (sendLoop s).answers = s.answers := rfl
@[simp] theorem sendLoop_draws : (sendLoop s).draws = s.draws := rfl
@[simp] theorem sendLoop_trace : (sendLoop s).trace = s.trace := rfl
@[simp] theorem sendLoop_slot : (sendLoop s).slot = s.slot := rfl

end Sys2Proof.Machine
end

