-- ==== Sys2Proof/Laws/Step.lean ====
section
/-! SUPPORT. What one step and a run of steps are, said once: the boundary, the operation at a level of the position, and the
composition of runs. -/
namespace Sys2Proof.Machine

variable {s t : State}

theorem step_of_configOk (h : configOk s) : step s = boundary s := by
  unfold configOk at h
  simp [step, h]

/-- A step answers only for a configuration the spec gives a meaning. -/
theorem configOk_of_step (h : step s = .next t) : configOk s ∧ boundary s = .next t := by
  unfold step at h
  unfold configOk
  cases hc : paramsRefusal s.cfg with
  | none => simpa [hc] using h
  | some r => simp [hc] at h

theorem boundary_nil (h : s.hostIn = []) : boundary s = seqStep s := by
  simp [boundary, h]

theorem boundary_quiet {rest : List HostMove} (h : s.hostIn = .quiet :: rest) :
    boundary s = seqStep (s.setHostIn rest) := by
  simp [boundary, h]

theorem boundary_rst {rest : List HostMove} (h : s.hostIn = .rst :: rest) :
    boundary s = .next (resetEvent (s.setHostIn rest)) := by
  simp [boundary, h]

theorem boundary_cmd {op : BitVec 2} {rest : List HostMove} (h : s.hostIn = .cmd op :: rest) :
    boundary s = commandStep op (s.setHostIn rest) := by
  simp [boundary, h]

theorem seqStep_op {i : Instr} (h : pick s = .op i t) : seqStep s = carryOn s.pos (exec i t) := by
  simp [seqStep, h]

@[simp] theorem carryOn_next {p : Pos} : carryOn p (.next t) = .next (afterOp p t) := rfl

theorem carryOn_eq_next {p : Pos} {o : Host.Outcome State Fault Refusal} (h : carryOn p o = .next t) :
    ∃ u, o = .next u ∧ t = afterOp p u := by
  cases o with
  | next u => exact ⟨u, rfl, by simpa [carryOn, eq_comm] using h⟩
  | fault f => simp [carryOn] at h
  | refused r => simp [carryOn] at h

/-- A control write answers only by launching the bus command word it forms. -/
theorem issueControl_eq_next {c : BitVec 4} (h : issueControl c s = .next t) :
    isBcw (bcwOf s.port.dir c) = true ∧ t = launch c s := by
  unfold issueControl at h
  split at h
  · next hb => exact ⟨hb, by simpa [eq_comm] using h⟩
  · cases h

theorem issueBcw_eq_next {d : Dir} {c : BitVec 4} (h : issueBcw d c s = .next t) :
    s.port.dir = d ∧ isBcw (bcwOf s.port.dir c) = true ∧ t = launch c s := by
  unfold issueBcw at h
  split at h
  · next hd => exact ⟨hd, issueControl_eq_next h⟩
  · cases h

/-- In its own direction a bus command word launches. -/
theorem issueBcw_of_dir {d : Dir} {c : BitVec 4} (hd : s.port.dir = d) (hb : isBcw (bcwOf d c) = true) :
    issueBcw d c s = .next (launch c s) := by
  simp [issueBcw, issueControl, hd, hb]

/-- At a transport label, with no spin in progress and nothing from the host, the step performs the label's operation and the
sequence moves on from the label. -/
theorem step_at_trans {l : TransLabel} {i : Instr} (hc : configOk s) (hh : s.hostIn = []) (hf : s.pos.leaf = none)
    (ht : s.pos.trans = some l) (hp : transPick l s = .op i s) (he : exec i s = .next t) (hl : t.pos.leaf = none) :
    step s = .next (advanceTrans l t) := by
  have hk : pick s = .op i s := by simp [pick, hf, ht, hp]
  rw [step_of_configOk hc, boundary_nil hh, seqStep_op hk, he, carryOn_next]
  simp [afterOp, hl, ht]

/-- At a protocol label the step calls the label's operation, which enters a transport sequence. -/
theorem step_at_proto {l : ProtoLabel} (hc : configOk s) (hh : s.hostIn = []) (hf : s.pos.leaf = none)
    (ht : s.pos.trans = none) (hp : s.pos.proto = some l) (he : exec (protoOp l s) s = .next t)
    (hl : t.pos.leaf = none) : step s = .next (if t.pos.trans.isSome then t else advanceProto l t) := by
  have hk : pick s = .op (protoOp l s) s := by simp [pick, hf, ht, hp]
  rw [step_of_configOk hc, boundary_nil hh, seqStep_op hk, he, carryOn_next]
  cases h : t.pos.trans <;> simp [afterOp, hl, ht, hp, h]

/-- A reset event is a step of its own. -/
theorem step_rst {rest : List HostMove} (hc : configOk s) (h : s.hostIn = .rst :: rest) :
    step s = .next (resetEvent (s.setHostIn rest)) := by
  rw [step_of_configOk hc, boundary_rst h]

@[simp] theorem runFor_zero : runFor 0 s = .next s := rfl

/-- A run of `k + 1` steps is a step and a run of `k`. -/
theorem runFor_step {k : Nat} (h : step s = .next t) : runFor (k + 1) s = runFor k t := by
  have h' : Sys2Proof.core.step s = .next t := h
  simp only [runFor, Host.Core.run, h']
  rfl

/-- Runs compose. -/
theorem runFor_add {a b : Nat} (h : runFor a s = .next t) : runFor (a + b) s = runFor b t := by
  induction a generalizing s with
  | zero =>
    have hs : s = t := by simpa using h
    rw [Nat.zero_add, hs]
  | succ a ih =>
    cases hs : step s with
    | next u =>
      rw [runFor_step hs] at h
      rw [Nat.succ_add, runFor_step hs, ih h]
    | fault f =>
      have h' : Sys2Proof.core.step s = .fault f := hs
      simp [runFor, Host.Core.run, h'] at h
    | refused r =>
      have h' : Sys2Proof.core.step s = .refused r := hs
      simp [runFor, Host.Core.run, h'] at h

/-- An invariant that every step keeps holds after every run. -/
theorem runFor_keeps {Inv : State → Prop} (hk : ∀ s t, Inv s → step s = .next t → Inv t) {k : Nat} (hs : Inv s)
    (h : runFor k s = .next t) : Inv t := by
  induction k generalizing s with
  | zero =>
    have e : s = t := by simpa using h
    exact e ▸ hs
  | succ k ih =>
    cases hn : step s with
    | next u => exact ih (hk s u hs hn) (by rwa [runFor_step hn] at h)
    | fault f =>
      have h' : Sys2Proof.core.step s = .fault f := hn
      simp [runFor, Host.Core.run, h'] at h
    | refused r =>
      have h' : Sys2Proof.core.step s = .refused r := hn
      simp [runFor, Host.Core.run, h'] at h

end Sys2Proof.Machine
end

