-- ==== Sys2Proof/Laws/Sequence.lean ====
section
/-! SUPPORT. One step at each label of SEND(n) and RECV2 (41_transport R182, R186): what it answers, said once. Each holds with no
spin in progress and nothing from the host; a wait is given for the answer that ends it. -/
namespace Sys2Proof.Machine

variable {s : State} (hc : configOk s) (hh : s.hostIn = []) (hf : s.pos.leaf = none)

include hc hh hf

theorem step_sW0 (ht : s.pos.trans = some .sW0) (hi : idleAnswer s.cfg (nextAnswer s)) :
    step s = .next ((waitIdlePass s).atTrans (some .sSA)) :=
  step_at_trans hc hh hf ht rfl rfl (by have h : (statusOf _ _).busy = false := hi; simp [h])

theorem step_sW1 (ht : s.pos.trans = some .sW1) (hi : idleAnswer s.cfg (nextAnswer s)) :
    step s = .next (sendLoop ((waitIdlePass s).setScr { s.scr with i := 1 })) :=
  step_at_trans hc hh hf ht rfl rfl (by have h : (statusOf _ _).busy = false := hi; simp [h])

theorem step_sW (ht : s.pos.trans = some .sW) (hi : idleAnswer s.cfg (nextAnswer s)) :
    step s = .next (sendLoop ((waitIdlePass s).setScr { s.scr with i := s.scr.i + 1 })) :=
  step_at_trans hc hh hf ht rfl rfl (by have h : (statusOf _ _).busy = false := hi; simp [h])

theorem step_rW0 (ht : s.pos.trans = some .rW0) (hi : idleAnswer s.cfg (nextAnswer s)) :
    step s = .next ((waitIdlePass s).atTrans (some .rSA)) :=
  step_at_trans hc hh hf ht rfl rfl (by have h : (statusOf _ _).busy = false := hi; simp [h])

theorem step_rW1 (ht : s.pos.trans = some .rW1) (hi : idleAnswer s.cfg (nextAnswer s)) :
    step s = .next ((waitIdlePass s).atTrans (some .rB0)) :=
  step_at_trans hc hh hf ht rfl rfl (by have h : (statusOf _ _).busy = false := hi; simp [h])

theorem step_rW2 (ht : s.pos.trans = some .rW2) (hi : idleAnswer s.cfg (nextAnswer s)) :
    step s = .next ((waitIdlePass s).atTrans (some .rB1)) :=
  step_at_trans hc hh hf ht rfl rfl (by have h : (statusOf _ _).busy = false := hi; simp [h])

theorem step_sSA (ht : s.pos.trans = some .sSA) :
    step s = .next ((wrAddr s.cfg.devAddr .send s).atTrans (some .sD0)) :=
  step_at_trans hc hh hf ht rfl rfl hf

theorem step_sD0 (ht : s.pos.trans = some .sD0) :
    step s = .next ((wrData s.scr.tx0 s).atTrans (some .sC0)) :=
  step_at_trans hc hh hf ht rfl rfl hf

theorem step_sE (ht : s.pos.trans = some .sE) :
    step s = .next ((errSample s).atTrans (some (if sendAborts (errorOf s.cfg (nextAnswer s)) then .sAB else .sD))) :=
  step_at_trans hc hh hf ht rfl rfl hf

theorem step_sEF (ht : s.pos.trans = some .sEF) :
    step s = .next (endTransport false (errSample s)) :=
  step_at_trans hc hh hf ht rfl rfl hf

theorem step_rSA (ht : s.pos.trans = some .rSA) :
    step s = .next ((wrAddr s.cfg.devAddr .recv s).atTrans (some .rC0)) :=
  step_at_trans hc hh hf ht rfl rfl hf

theorem step_rB0 (ht : s.pos.trans = some .rB0) :
    step s = .next (((rdData s).setScr { s.scr with rb0 := byteOf s.cfg.layout (nextAnswer s) }).atTrans (some .rC1)) :=
  step_at_trans hc hh hf ht rfl rfl hf

theorem step_rB1 (ht : s.pos.trans = some .rB1) :
    step s = .next (((rdData s).setScr { s.scr with rb1 := byteOf s.cfg.layout (nextAnswer s) }).atTrans (some .rE)) :=
  step_at_trans hc hh hf ht rfl rfl hf

theorem step_rE (ht : s.pos.trans = some .rE) :
    step s = .next (endAttempt (errSample s)) :=
  step_at_trans hc hh hf ht rfl rfl hf

theorem step_sD {b : Byte} (ht : s.pos.trans = some .sD) (hb : txAt s.scr s.scr.i = some b) :
    step s = .next ((wrData b s).atTrans (some .sC)) :=
  step_at_trans hc hh hf ht (by simp [transPick, hb]; rfl) rfl hf

theorem step_sC0_first (ht : s.pos.trans = some .sC0) (hn : s.scr.n = 1) (hd : s.port.dir = .send) :
    step s = .next ((launch 0b0111 s).atTrans (some .sW1)) :=
  step_at_trans (i := .sendSingle) (by simp only [transPick, if_pos hn]) (hc := hc) (hh := hh) (hf := hf) (ht := ht) (he := issueBcw_of_dir hd rfl) (hl := hf)

theorem step_sC0_more (ht : s.pos.trans = some .sC0) (hn : s.scr.n ≠ 1) (hd : s.port.dir = .send) :
    step s = .next ((launch 0b0011 s).atTrans (some .sW1)) :=
  step_at_trans (i := .sendStart) (by simp only [transPick, if_neg hn]) (hc := hc) (hh := hh) (hf := hf) (ht := ht) (he := issueBcw_of_dir hd rfl) (hl := hf)

theorem step_sC_last (ht : s.pos.trans = some .sC) (hn : s.scr.i = s.scr.n - 1) (hd : s.port.dir = .send) :
    step s = .next ((launch 0b0101 s).atTrans (some .sW)) :=
  step_at_trans (i := .sendFinish) (by simp only [transPick, if_pos hn]) (hc := hc) (hh := hh) (hf := hf) (ht := ht) (he := issueBcw_of_dir hd rfl) (hl := hf)

theorem step_sC_mid (ht : s.pos.trans = some .sC) (hn : s.scr.i ≠ s.scr.n - 1) (hd : s.port.dir = .send) :
    step s = .next ((launch 0b0001 s).atTrans (some .sW)) :=
  step_at_trans (i := .sendCont) (by simp only [transPick, if_neg hn]) (hc := hc) (hh := hh) (hf := hf) (ht := ht) (he := issueBcw_of_dir hd rfl) (hl := hf)

theorem step_sAB (ht : s.pos.trans = some .sAB) (hd : s.port.dir = .send) :
    step s = .next (endTransport false (launch 0b0100 s)) :=
  step_at_trans (i := .sendErrStop) rfl (hc := hc) (hh := hh) (hf := hf) (ht := ht) (he := issueBcw_of_dir hd rfl) (hl := hf)

theorem step_rC0 (ht : s.pos.trans = some .rC0) (hd : s.port.dir = .recv) :
    step s = .next ((launch 0b1011 s).atTrans (some .rW1)) :=
  step_at_trans (i := .recvStartAck) rfl (hc := hc) (hh := hh) (hf := hf) (ht := ht) (he := issueBcw_of_dir hd rfl) (hl := hf)

theorem step_rC1 (ht : s.pos.trans = some .rC1) (hd : s.port.dir = .recv) :
    step s = .next ((launch 0b0101 s).atTrans (some .rW2)) :=
  step_at_trans (i := .recvFinish) rfl (hc := hc) (hh := hh) (hf := hf) (ht := ht) (he := issueBcw_of_dir hd rfl) (hl := hf)

end Sys2Proof.Machine
end

