-- ==== Sys2Proof/Laws/During.lean ====
section
/-! SUPPORT. A transport sequence in progress, written as the state it began in and the parts a sequence may change, and one step at
each label in that form (41_transport R182, R186). A whole run of a primitive is a chain of these. -/
namespace Sys2Proof.Machine

/-- `s` with a transport sequence at label `l`, registers `r`, return values `v` and `b`, bus-master fields `p`, coming answers
`ws`, counter `k` and events `es`. -/
def State.during (s : State) (l : Option TransLabel) (r : Scratch) (v : PortStatus) (b : Byte) (p : BusPort) (ws : List Word)
    (k : Nat) (es : List Event) : State :=
  { s with
    pos := { s.pos with trans := l }
    scr := r
    st := v
    rd := b
    port := p
    answers := ws
    draws := k
    trace := es }

/-- A state is itself, at the label it stands at. -/
theorem State.during_self (s : State) (l : Option TransLabel) :
    s.atTrans l = s.during l s.scr s.st s.rd s.port s.answers s.draws s.trace := rfl

variable {s : State} {r : Scratch} {v : PortStatus} {b : Byte} {p : BusPort} {w : Word} {ws : List Word} {k : Nat}
  {es : List Event}

@[simp] theorem during_cfg {l : Option TransLabel} : (s.during l r v b p ws k es).cfg = s.cfg := rfl

@[simp] theorem during_acq {l : Option TransLabel} : (s.during l r v b p ws k es).acq = s.acq := rfl

@[simp] theorem during_stat {l : Option TransLabel} : (s.during l r v b p ws k es).stat = s.stat := rfl

@[simp] theorem during_raw {l : Option TransLabel} : (s.during l r v b p ws k es).raw = s.raw := rfl

@[simp] theorem during_result {l : Option TransLabel} : (s.during l r v b p ws k es).result = s.result := rfl

@[simp] theorem during_hostIn {l : Option TransLabel} : (s.during l r v b p ws k es).hostIn = s.hostIn := rfl

@[simp] theorem during_slot {l : Option TransLabel} : (s.during l r v b p ws k es).slot = s.slot := rfl

@[simp] theorem during_pos {l : Option TransLabel} : (s.during l r v b p ws k es).pos = { s.pos with trans := l } := rfl

@[simp] theorem during_scr {l : Option TransLabel} : (s.during l r v b p ws k es).scr = r := rfl

@[simp] theorem during_st {l : Option TransLabel} : (s.during l r v b p ws k es).st = v := rfl

@[simp] theorem during_rd {l : Option TransLabel} : (s.during l r v b p ws k es).rd = b := rfl

@[simp] theorem during_port {l : Option TransLabel} : (s.during l r v b p ws k es).port = p := rfl

@[simp] theorem during_answers {l : Option TransLabel} : (s.during l r v b p ws k es).answers = ws := rfl

@[simp] theorem during_draws {l : Option TransLabel} : (s.during l r v b p ws k es).draws = k := rfl

@[simp] theorem during_trace {l : Option TransLabel} : (s.during l r v b p ws k es).trace = es := rfl

section
variable (hc : configOk s) (hh : s.hostIn = []) (hf : s.pos.leaf = none)

include hc hh hf

theorem during_sW0 (hi : idleAnswer s.cfg w) :
    step (s.during (some .sW0) r v b p (w :: ws) k es) =
      .next (s.during (some .sSA) r (statusOf s.cfg.layout w) b p ws (k + 1) (evRS s.cfg w :: es)) := by
  have hb : (statusOf s.cfg.layout w).busy = false := hi
  have hn : nextAnswer (s.during (some .sW0) r v b p (w :: ws) k es) = w := rfl
  rw [step_sW0 (s := s.during (some .sW0) r v b p (w :: ws) k es) hc hh hf rfl (by rw [hn]; exact hi)]
  simp only [waitIdlePass, rdStatus, memRead, hn, Bool.false_eq_true, if_false, during_cfg, State.setSt_st, hb]
  simp only [State.during, State.atTrans, State.atLeaf, State.setPos, State.setSt, State.record, afterDraw, State.setOracle,
    evRS, List.tail_cons, hf]

theorem during_rW0 (hi : idleAnswer s.cfg w) :
    step (s.during (some .rW0) r v b p (w :: ws) k es) =
      .next (s.during (some .rSA) r (statusOf s.cfg.layout w) b p ws (k + 1) (evRS s.cfg w :: es)) := by
  have hb : (statusOf s.cfg.layout w).busy = false := hi
  have hn : nextAnswer (s.during (some .rW0) r v b p (w :: ws) k es) = w := rfl
  rw [step_rW0 (s := s.during (some .rW0) r v b p (w :: ws) k es) hc hh hf rfl (by rw [hn]; exact hi)]
  simp only [waitIdlePass, rdStatus, memRead, hn, Bool.false_eq_true, if_false, during_cfg, State.setSt_st, hb]
  simp only [State.during, State.atTrans, State.atLeaf, State.setPos, State.setSt, State.record, afterDraw, State.setOracle,
    evRS, List.tail_cons, hf]

theorem during_rW1 (hi : idleAnswer s.cfg w) :
    step (s.during (some .rW1) r v b p (w :: ws) k es) =
      .next (s.during (some .rB0) r (statusOf s.cfg.layout w) b p ws (k + 1) (evRS s.cfg w :: es)) := by
  have hb : (statusOf s.cfg.layout w).busy = false := hi
  have hn : nextAnswer (s.during (some .rW1) r v b p (w :: ws) k es) = w := rfl
  rw [step_rW1 (s := s.during (some .rW1) r v b p (w :: ws) k es) hc hh hf rfl (by rw [hn]; exact hi)]
  simp only [waitIdlePass, rdStatus, memRead, hn, Bool.false_eq_true, if_false, during_cfg, State.setSt_st, hb]
  simp only [State.during, State.atTrans, State.atLeaf, State.setPos, State.setSt, State.record, afterDraw, State.setOracle,
    evRS, List.tail_cons, hf]

theorem during_rW2 (hi : idleAnswer s.cfg w) :
    step (s.during (some .rW2) r v b p (w :: ws) k es) =
      .next (s.during (some .rB1) r (statusOf s.cfg.layout w) b p ws (k + 1) (evRS s.cfg w :: es)) := by
  have hb : (statusOf s.cfg.layout w).busy = false := hi
  have hn : nextAnswer (s.during (some .rW2) r v b p (w :: ws) k es) = w := rfl
  rw [step_rW2 (s := s.during (some .rW2) r v b p (w :: ws) k es) hc hh hf rfl (by rw [hn]; exact hi)]
  simp only [waitIdlePass, rdStatus, memRead, hn, Bool.false_eq_true, if_false, during_cfg, State.setSt_st, hb]
  simp only [State.during, State.atTrans, State.atLeaf, State.setPos, State.setSt, State.record, afterDraw, State.setOracle,
    evRS, List.tail_cons, hf]

theorem during_sW1 (hi : idleAnswer s.cfg w) :
    step (s.during (some .sW1) r v b p (w :: ws) k es) =
      .next (s.during (some (if 1 < r.n then .sE else .sEF)) { r with i := 1 } (statusOf s.cfg.layout w) b p ws (k + 1)
        (evRS s.cfg w :: es)) := by
  have hb : (statusOf s.cfg.layout w).busy = false := hi
  have hn : nextAnswer (s.during (some .sW1) r v b p (w :: ws) k es) = w := rfl
  rw [step_sW1 (s := s.during (some .sW1) r v b p (w :: ws) k es) hc hh hf rfl (by rw [hn]; exact hi)]
  simp only [waitIdlePass, rdStatus, memRead, hn, Bool.false_eq_true, if_false, during_cfg, State.setSt_st, hb]
  simp only [State.during, State.atTrans, State.atLeaf, State.setPos, State.setSt, State.record, afterDraw, State.setOracle, sendLoop,
    State.setScr, evRS, List.tail_cons, hf]

theorem during_sW (hi : idleAnswer s.cfg w) :
    step (s.during (some .sW) r v b p (w :: ws) k es) =
      .next (s.during (some (if r.i + 1 < r.n then .sE else .sEF)) { r with i := r.i + 1 } (statusOf s.cfg.layout w) b p ws
        (k + 1) (evRS s.cfg w :: es)) := by
  have hb : (statusOf s.cfg.layout w).busy = false := hi
  have hn : nextAnswer (s.during (some .sW) r v b p (w :: ws) k es) = w := rfl
  rw [step_sW (s := s.during (some .sW) r v b p (w :: ws) k es) hc hh hf rfl (by rw [hn]; exact hi)]
  simp only [waitIdlePass, rdStatus, memRead, hn, Bool.false_eq_true, if_false, during_cfg, State.setSt_st, hb]
  simp only [State.during, State.atTrans, State.atLeaf, State.setPos, State.setSt, State.record, afterDraw, State.setOracle, sendLoop,
    State.setScr, evRS, List.tail_cons, hf]

theorem during_sSA :
    step (s.during (some .sSA) r v b p ws k es) =
      .next (s.during (some .sD0) r v b { p with addr := s.cfg.devAddr, dir := .send } ws k (evWA s.cfg .send :: es)) := by
  rw [step_sSA (s := s.during (some .sSA) r v b p ws k es) hc hh hf rfl]
  rfl

theorem during_rSA :
    step (s.during (some .rSA) r v b p ws k es) =
      .next (s.during (some .rC0) r v b { p with addr := s.cfg.devAddr, dir := .recv } ws k (evWA s.cfg .recv :: es)) := by
  rw [step_rSA (s := s.during (some .rSA) r v b p ws k es) hc hh hf rfl]
  rfl

theorem during_sD0 :
    step (s.during (some .sD0) r v b p ws k es) =
      .next (s.during (some .sC0) r v b { p with byte := r.tx0 } ws k (evWD s.cfg r.tx0 :: es)) := by
  rw [step_sD0 (s := s.during (some .sD0) r v b p ws k es) hc hh hf rfl]
  rfl

theorem during_sD {x : Byte} (hx : txAt r r.i = some x) :
    step (s.during (some .sD) r v b p ws k es) =
      .next (s.during (some .sC) r v b { p with byte := x } ws k (evWD s.cfg x :: es)) := by
  rw [step_sD (s := s.during (some .sD) r v b p ws k es) hc hh hf rfl hx]
  rfl

theorem during_sE :
    step (s.during (some .sE) r v b p (w :: ws) k es) =
      .next (s.during (some (if sendAborts (errorOf s.cfg w) then .sAB else .sD)) { r with e := errorOf s.cfg w }
        (statusOf s.cfg.layout w) b p ws (k + 1) (evRS s.cfg w :: es)) := by
  rw [step_sE (s := s.during (some .sE) r v b p (w :: ws) k es) hc hh hf rfl]
  rfl

theorem during_sEF :
    step (s.during (some .sEF) r v b p (w :: ws) k es) =
      .next (endTransport false (s.during (some .sEF) { r with e := errorOf s.cfg w } (statusOf s.cfg.layout w) b p ws
        (k + 1) (evRS s.cfg w :: es))) := by
  rw [step_sEF (s := s.during (some .sEF) r v b p (w :: ws) k es) hc hh hf rfl]
  rfl

theorem during_rE :
    step (s.during (some .rE) r v b p (w :: ws) k es) =
      .next (endAttempt (s.during (some .rE) { r with e := errorOf s.cfg w } (statusOf s.cfg.layout w) b p ws (k + 1)
        (evRS s.cfg w :: es))) := by
  rw [step_rE (s := s.during (some .rE) r v b p (w :: ws) k es) hc hh hf rfl]
  rfl

theorem during_rB0 :
    step (s.during (some .rB0) r v b p (w :: ws) k es) =
      .next (s.during (some .rC1) { r with rb0 := byteOf s.cfg.layout w } v (byteOf s.cfg.layout w) p ws (k + 1)
        (evRD s.cfg w :: es)) := by
  rw [step_rB0 (s := s.during (some .rB0) r v b p (w :: ws) k es) hc hh hf rfl]
  rfl

theorem during_rB1 :
    step (s.during (some .rB1) r v b p (w :: ws) k es) =
      .next (s.during (some .rE) { r with rb1 := byteOf s.cfg.layout w } v (byteOf s.cfg.layout w) p ws (k + 1)
        (evRD s.cfg w :: es)) := by
  rw [step_rB1 (s := s.during (some .rB1) r v b p (w :: ws) k es) hc hh hf rfl]
  rfl

theorem during_sC0_first (hn : r.n = 1) (ha : p.addr = s.cfg.devAddr) (hd : p.dir = .send) :
    step (s.during (some .sC0) r v b p ws k es) =
      .next (s.during (some .sW1) r v b p ws k (evWC s.cfg .send 0b0111 p.byte :: es)) := by
  obtain ⟨pa, pd, pb⟩ := p
  simp only at ha hd
  subst ha hd
  rw [step_sC0_first (s := s.during (some .sC0) r v b _ ws k es) hc hh hf rfl hn rfl]
  rfl

theorem during_sC0_more (hn : r.n ≠ 1) (ha : p.addr = s.cfg.devAddr) (hd : p.dir = .send) :
    step (s.during (some .sC0) r v b p ws k es) =
      .next (s.during (some .sW1) r v b p ws k (evWC s.cfg .send 0b0011 p.byte :: es)) := by
  obtain ⟨pa, pd, pb⟩ := p
  simp only at ha hd
  subst ha hd
  rw [step_sC0_more (s := s.during (some .sC0) r v b _ ws k es) hc hh hf rfl hn rfl]
  rfl

theorem during_sC_last (hn : r.i = r.n - 1) (ha : p.addr = s.cfg.devAddr) (hd : p.dir = .send) :
    step (s.during (some .sC) r v b p ws k es) =
      .next (s.during (some .sW) r v b p ws k (evWC s.cfg .send 0b0101 p.byte :: es)) := by
  obtain ⟨pa, pd, pb⟩ := p
  simp only at ha hd
  subst ha hd
  rw [step_sC_last (s := s.during (some .sC) r v b _ ws k es) hc hh hf rfl hn rfl]
  rfl

theorem during_sC_mid (hn : r.i ≠ r.n - 1) (ha : p.addr = s.cfg.devAddr) (hd : p.dir = .send) :
    step (s.during (some .sC) r v b p ws k es) =
      .next (s.during (some .sW) r v b p ws k (evWC s.cfg .send 0b0001 p.byte :: es)) := by
  obtain ⟨pa, pd, pb⟩ := p
  simp only at ha hd
  subst ha hd
  rw [step_sC_mid (s := s.during (some .sC) r v b _ ws k es) hc hh hf rfl hn rfl]
  rfl

theorem during_sAB (ha : p.addr = s.cfg.devAddr) (hd : p.dir = .send) :
    step (s.during (some .sAB) r v b p ws k es) =
      .next (endTransport false (s.during (some .sAB) r v b p ws k (evWC s.cfg .send 0b0100 p.byte :: es))) := by
  obtain ⟨pa, pd, pb⟩ := p
  simp only at ha hd
  subst ha hd
  rw [step_sAB (s := s.during (some .sAB) r v b _ ws k es) hc hh hf rfl rfl]
  rfl

theorem during_rC0 (ha : p.addr = s.cfg.devAddr) (hd : p.dir = .recv) :
    step (s.during (some .rC0) r v b p ws k es) =
      .next (s.during (some .rW1) r v b p ws k (evWC s.cfg .recv 0b1011 p.byte :: es)) := by
  obtain ⟨pa, pd, pb⟩ := p
  simp only at ha hd
  subst ha hd
  rw [step_rC0 (s := s.during (some .rC0) r v b _ ws k es) hc hh hf rfl rfl]
  rfl

theorem during_rC1 (ha : p.addr = s.cfg.devAddr) (hd : p.dir = .recv) :
    step (s.during (some .rC1) r v b p ws k es) =
      .next (s.during (some .rW2) r v b p ws k (evWC s.cfg .recv 0b0101 p.byte :: es)) := by
  obtain ⟨pa, pd, pb⟩ := p
  simp only at ha hd
  subst ha hd
  rw [step_rC1 (s := s.during (some .rC1) r v b _ ws k es) hc hh hf rfl rfl]
  rfl

end

end Sys2Proof.Machine
end

