-- ==== Sys2Proof/Laws/Frame.lean ====
section
/-! SUPPORT. What an operation, the position's advance and a step can change, said once: the fields each keeps, and the cases a
step that answers falls into. -/
namespace Sys2Proof.Machine

variable {s t : State}

/-! ### Returning to a calling level -/

theorem returnToHost_keeps (s : State) :
    (returnToHost s).cfg = s.cfg ∧ (returnToHost s).scr = s.scr ∧ (returnToHost s).stat = s.stat ∧
    (returnToHost s).raw = s.raw ∧ (returnToHost s).result = s.result ∧ (returnToHost s).st = s.st ∧
    (returnToHost s).rd = s.rd ∧ (returnToHost s).port = s.port ∧ (returnToHost s).hostIn = s.hostIn ∧
    (returnToHost s).answers = s.answers ∧ (returnToHost s).draws = s.draws ∧ (returnToHost s).trace = s.trace ∧
    (returnToHost s).slot = s.slot ∧ (returnToHost s).pos.curOp = s.pos.curOp ∧
    (returnToHost s).pos.proto = s.pos.proto ∧ (returnToHost s).pos.trans = s.pos.trans ∧
    (returnToHost s).pos.leaf = s.pos.leaf ∧ (returnToHost s).pos.host.isSome = s.pos.host.isSome := by
  unfold returnToHost
  cases h : s.pos.host with
  | none => simp [h]
  | some l => cases l <;> simp [advanceHost, h]

/-- What the end of a protocol label keeps; RAW and RESULT too, but for T_LS. -/
theorem advanceProto_keeps (l : ProtoLabel) (s : State) :
    (advanceProto l s).cfg = s.cfg ∧ (advanceProto l s).st = s.st ∧ (advanceProto l s).rd = s.rd ∧
    (advanceProto l s).port = s.port ∧ (advanceProto l s).hostIn = s.hostIn ∧ (advanceProto l s).answers = s.answers ∧
    (advanceProto l s).draws = s.draws ∧ (advanceProto l s).trace = s.trace ∧ (advanceProto l s).slot = s.slot ∧
    (advanceProto l s).pos.curOp = s.pos.curOp ∧ (advanceProto l s).pos.trans = s.pos.trans ∧
    (advanceProto l s).pos.leaf = s.pos.leaf ∧ (advanceProto l s).pos.host.isSome = s.pos.host.isSome := by
  cases l <;> simp [advanceProto, returnToHost_keeps]

theorem returnToProto_keeps (s : State) :
    (returnToProto s).cfg = s.cfg ∧ (returnToProto s).st = s.st ∧ (returnToProto s).rd = s.rd ∧
    (returnToProto s).port = s.port ∧ (returnToProto s).hostIn = s.hostIn ∧ (returnToProto s).answers = s.answers ∧
    (returnToProto s).draws = s.draws ∧ (returnToProto s).trace = s.trace ∧ (returnToProto s).slot = s.slot ∧
    (returnToProto s).pos.curOp = s.pos.curOp ∧ (returnToProto s).pos.trans = s.pos.trans ∧
    (returnToProto s).pos.leaf = s.pos.leaf ∧ (returnToProto s).pos.host.isSome = s.pos.host.isSome := by
  unfold returnToProto
  cases h : s.pos.proto with
  | none => simp
  | some l => exact advanceProto_keeps l s

theorem endTransport_keeps (x : Bool) (s : State) :
    (endTransport x s).cfg = s.cfg ∧ (endTransport x s).st = s.st ∧ (endTransport x s).rd = s.rd ∧
    (endTransport x s).port = s.port ∧ (endTransport x s).hostIn = s.hostIn ∧ (endTransport x s).answers = s.answers ∧
    (endTransport x s).draws = s.draws ∧ (endTransport x s).trace = s.trace ∧ (endTransport x s).slot = s.slot ∧
    (endTransport x s).pos.curOp = s.pos.curOp ∧ (endTransport x s).pos.trans = none ∧
    (endTransport x s).pos.leaf = s.pos.leaf ∧ (endTransport x s).pos.host.isSome = s.pos.host.isSome := by
  unfold endTransport
  simp [returnToProto_keeps]

/-- What the end of a primitive does to the registers it reports in (41_transport R188). -/
theorem endTransport_reports (x : Bool) (s : State) :
    (endTransport x s).scr.e = s.scr.e ∧ (endTransport x s).scr.x = x ∧ (endTransport x s).scr.rb0 = s.scr.rb0 ∧
    (endTransport x s).scr.rb1 = s.scr.rb1 ∧ (endTransport x s).scr.att = s.scr.att ∧
    (endTransport x s).stat.lastErr = s.scr.e ∧ (endTransport x s).stat.accErr = s.stat.accErr ||| s.scr.e ∧
    (endTransport x s).stat.anyExh = (s.stat.anyExh || x) := by
  unfold endTransport returnToProto
  cases h : s.pos.proto with
  | none => simp [h, endPrimitiveFlags]
  | some l => cases l <;> simp [h, endPrimitiveFlags, advanceProto, returnToHost_keeps]

theorem endAttempt_keeps (s : State) :
    (endAttempt s).cfg = s.cfg ∧ (endAttempt s).st = s.st ∧ (endAttempt s).rd = s.rd ∧
    (endAttempt s).port = s.port ∧ (endAttempt s).hostIn = s.hostIn ∧ (endAttempt s).answers = s.answers ∧
    (endAttempt s).draws = s.draws ∧ (endAttempt s).trace = s.trace ∧ (endAttempt s).slot = s.slot ∧
    (endAttempt s).pos.curOp = s.pos.curOp ∧ (endAttempt s).pos.leaf = s.pos.leaf ∧
    (endAttempt s).pos.host.isSome = s.pos.host.isSome := by
  unfold endAttempt
  split
  · split
    · simp [endTransport_keeps]
    · simp
  · simp [endTransport_keeps]

theorem advanceTrans_keeps (l : TransLabel) (s : State) :
    (advanceTrans l s).cfg = s.cfg ∧ (advanceTrans l s).st = s.st ∧ (advanceTrans l s).rd = s.rd ∧
    (advanceTrans l s).port = s.port ∧ (advanceTrans l s).hostIn = s.hostIn ∧ (advanceTrans l s).answers = s.answers ∧
    (advanceTrans l s).draws = s.draws ∧ (advanceTrans l s).trace = s.trace ∧ (advanceTrans l s).slot = s.slot ∧
    (advanceTrans l s).pos.curOp = s.pos.curOp ∧ (advanceTrans l s).pos.leaf = s.pos.leaf ∧
    (advanceTrans l s).pos.host.isSome = s.pos.host.isSome := by
  cases l <;> simp [advanceTrans, endTransport_keeps, endAttempt_keeps]

theorem advanceHost_keeps (l : HostLabel) (s : State) (hs : s.pos.host = some l) :
    (advanceHost l s).cfg = s.cfg ∧ (advanceHost l s).scr = s.scr ∧ (advanceHost l s).stat = s.stat ∧
    (advanceHost l s).raw = s.raw ∧ (advanceHost l s).result = s.result ∧ (advanceHost l s).st = s.st ∧
    (advanceHost l s).rd = s.rd ∧ (advanceHost l s).port = s.port ∧ (advanceHost l s).hostIn = s.hostIn ∧
    (advanceHost l s).answers = s.answers ∧ (advanceHost l s).draws = s.draws ∧ (advanceHost l s).trace = s.trace ∧
    (advanceHost l s).slot = s.slot ∧ (advanceHost l s).pos.curOp = s.pos.curOp ∧
    (advanceHost l s).pos.proto = s.pos.proto ∧ (advanceHost l s).pos.trans = s.pos.trans ∧
    (advanceHost l s).pos.leaf = s.pos.leaf ∧ (advanceHost l s).pos.host.isSome = s.pos.host.isSome := by
  cases l <;> simp [advanceHost, hs]

/-! ### The returns in the terms of the table of labels (10_state R33) -/

theorem returnToHost_eq (s : State) : returnToHost s = hostFollows s := by
  unfold returnToHost hostFollows
  cases h : s.pos.host with
  | none => rfl
  | some l => cases l <;> simp [advanceHost, State.atHost, State.setPos, State.setAcq, pinBusy]

theorem returnToProto_eq (s : State) : returnToProto s = protoFollows s := by
  unfold returnToProto protoFollows
  cases h : s.pos.proto with
  | none => rfl
  | some l =>
    cases l <;> simp [advanceProto, State.atProto, State.setPos, takeResult, takeConfig, publish, State.setScr,
      State.setStat, State.setReading, received, returnToHost_eq]

theorem endTransport_eq (x : Bool) (s : State) : endTransport x s = primitiveFollows x s := by
  simp only [endTransport, returnToProto_eq, primitiveFollows, endPrimitive, endPrimitiveFlags, State.atTrans, State.setPos,
    State.setStat, State.setScr]

/-! ### Operations -/

/-- What no operation changes, and the events it performs: none or one. -/
theorem exec_keeps {i : Instr} (h : exec i s = .next t) :
    t.cfg = s.cfg ∧ t.raw = s.raw ∧ t.result = s.result ∧ t.hostIn = s.hostIn ∧ t.slot = s.slot ∧
    (t.trace = s.trace ∨ ∃ e, t.trace = e :: s.trace) := by
  cases i with
  | wrCtl c => obtain ⟨-, rfl⟩ := issueControl_eq_next h; simp
  | sendSingle => obtain ⟨-, -, rfl⟩ := issueBcw_eq_next h; simp
  | sendStart => obtain ⟨-, -, rfl⟩ := issueBcw_eq_next h; simp
  | sendCont => obtain ⟨-, -, rfl⟩ := issueBcw_eq_next h; simp
  | sendFinish => obtain ⟨-, -, rfl⟩ := issueBcw_eq_next h; simp
  | sendErrStop => obtain ⟨-, -, rfl⟩ := issueBcw_eq_next h; simp
  | recvStartAck => obtain ⟨-, -, rfl⟩ := issueBcw_eq_next h; simp
  | recvFinish => obtain ⟨-, -, rfl⟩ := issueBcw_eq_next h; simp
  | start =>
    obtain rfl := Host.Outcome.next.inj h
    split
    · simp
    · unfold beginStart; split <;> simp
  | pollEnd =>
    obtain rfl := Host.Outcome.next.inj h
    split
    · simp
    · unfold beginPollEnd; split <;> simp
  | blockingRead =>
    obtain rfl := Host.Outcome.next.inj h
    split
    · simp
    · simp [beginBlockingRead]
  | _ => obtain rfl := Host.Outcome.next.inj h; simp [enterSend, loadSend1, loadSend2, loadSend3]

/-! ### Steps -/

/-- Where an operation the sequencer picks comes from. -/
theorem pick_op {i : Instr} (h : pick s = .op i t) :
    (t = s ∧ (s.pos.leaf = some .waitIdle ∧ i = .waitIdle ∨ s.pos.leaf = some .waitDone ∧ i = .waitDone)) ∨
    (s.pos.leaf = none ∧ t = s ∧ ∃ l, s.pos.trans = some l ∧ transPick l s = .op i s) ∨
    (s.pos.leaf = none ∧ s.pos.trans = none ∧ t = s ∧ ∃ l, s.pos.proto = some l ∧ i = protoOp l s) ∨
    (s.pos.leaf = none ∧ s.pos.trans = none ∧ s.pos.proto = none ∧ t = s ∧
      ∃ l, s.pos.host = some l ∧ hostPick l s = .op i s) ∨
    (s.pos.leaf = none ∧ s.pos.trans = none ∧ s.pos.proto = none ∧ s.pos.host = none ∧ t = s.setSlot none ∧
      ∃ r rest, s.slot = some r ∧ Sys2Proof.decode r.fmt r.bytes = .ok (i, rest)) := by
  unfold pick at h
  cases hf : s.pos.leaf with
  | some w => rw [hf] at h; cases w <;> cases h <;> simp
  | none =>
    rw [hf] at h
    cases ht : s.pos.trans with
    | some l =>
      rw [ht] at h
      simp only at h
      obtain rfl : t = s := by
        cases l <;> simp only [transPick] at h
        case sD => cases hx : txAt s.scr s.scr.i <;> rw [hx] at h <;> cases h; rfl
        all_goals (cases h; rfl)
      exact .inr (.inl ⟨rfl, rfl, l, rfl, h⟩)
    | none =>
      rw [ht] at h
      cases hp : s.pos.proto with
      | some l => rw [hp] at h; cases h; simp
      | none =>
        rw [hp] at h
        cases hh : s.pos.host with
        | some l =>
          rw [hh] at h
          simp only at h
          obtain rfl : t = s := by cases l <;> cases h <;> rfl
          exact .inr (.inr (.inr (.inl ⟨rfl, rfl, rfl, rfl, l, rfl, h⟩)))
        | none =>
          rw [hh] at h
          simp only [slotPick] at h
          cases hs : s.slot with
          | none => rw [hs] at h; cases h
          | some r =>
            rw [hs] at h
            simp only at h
            cases hd : Sys2Proof.decode r.fmt r.bytes with
            | error e => rw [hd] at h; cases h
            | ok x => rw [hd] at h; cases h; exact .inr (.inr (.inr (.inr ⟨rfl, rfl, rfl, rfl, rfl, r, x.2, rfl, hd⟩)))

/-- A completion is picked only at the host level. -/
theorem pick_complete {r : Bool} (h : pick s = .complete r) :
    s.pos.leaf = none ∧ s.pos.trans = none ∧ s.pos.proto = none ∧ s.pos.host = some (.complete r) := by
  unfold pick at h
  cases hf : s.pos.leaf with
  | some w => rw [hf] at h; cases w <;> cases h
  | none =>
    rw [hf] at h
    cases ht : s.pos.trans with
    | some l =>
      rw [ht] at h
      simp only at h
      cases l <;> simp only [transPick] at h
      case sD => cases hx : txAt s.scr s.scr.i <;> rw [hx] at h <;> cases h
      all_goals cases h
    | none =>
      rw [ht] at h
      cases hp : s.pos.proto with
      | some l => rw [hp] at h; cases h
      | none =>
        rw [hp] at h
        cases hh : s.pos.host with
        | some l => rw [hh] at h; simp only at h; cases l <;> cases h <;> simp
        | none =>
          rw [hh] at h
          simp only [slotPick] at h
          cases hs : s.slot with
          | none => rw [hs] at h; cases h
          | some r =>
            rw [hs] at h
            simp only at h
            cases hd : Sys2Proof.decode r.fmt r.bytes <;> rw [hd] at h <;> cases h

/-- Every step that answers is one of these: a reset, a command turned away as reserved, an accepted or overrun command, an
operation of the sequencer, a completion, or rest. -/
theorem step_cases (h : step s = .next t) :
    (∃ rest, s.hostIn = .rst :: rest ∧ t = resetEvent (s.setHostIn rest)) ∨
    (∃ op rest, s.hostIn = .cmd op :: rest ∧ commandOp op = none ∧ t = reservedCommand (s.setHostIn rest)) ∨
    (∃ op rest i, s.hostIn = .cmd op :: rest ∧ commandOp op = some i ∧ exec i (s.setHostIn rest) = .next t) ∨
    (∃ u, (s.hostIn = [] ∧ u = s ∨ ∃ rest, s.hostIn = .quiet :: rest ∧ u = s.setHostIn rest) ∧
      ((∃ i v w, pick u = .op i v ∧ exec i v = .next w ∧ t = afterOp u.pos w) ∨
       (∃ r, pick u = .complete r ∧ t = complete r u) ∨ (pick u = .idle ∧ t = u))) := by
  have hb := (configOk_of_step h).2
  have seq : ∀ u : State, seqStep u = .next t →
      ((∃ i v w, pick u = .op i v ∧ exec i v = .next w ∧ t = afterOp u.pos w) ∨
       (∃ r, pick u = .complete r ∧ t = complete r u) ∨ (pick u = .idle ∧ t = u)) := by
    intro u hu
    unfold seqStep at hu
    cases hp : pick u with
    | op i v =>
      rw [hp] at hu
      obtain ⟨w, h1, h2⟩ := carryOn_eq_next hu
      exact .inl ⟨i, v, w, rfl, h1, h2⟩
    | complete r => rw [hp] at hu; exact .inr (.inl ⟨r, rfl, (Host.Outcome.next.inj hu).symm⟩)
    | idle => rw [hp] at hu; exact .inr (.inr ⟨rfl, (Host.Outcome.next.inj hu).symm⟩)
    | fault f => rw [hp] at hu; cases hu
    | refuse r => rw [hp] at hu; cases hu
  unfold boundary at hb
  cases hh : s.hostIn with
  | nil => rw [hh] at hb; exact .inr (.inr (.inr ⟨s, .inl ⟨rfl, rfl⟩, seq s hb⟩))
  | cons m rest =>
    rw [hh] at hb
    cases m with
    | quiet => exact .inr (.inr (.inr ⟨_, .inr ⟨rest, rfl, rfl⟩, seq _ hb⟩))
    | rst => exact .inl ⟨rest, rfl, (Host.Outcome.next.inj hb).symm⟩
    | cmd op =>
      cases hc : commandOp op with
      | none =>
        simp only [commandStep, hc] at hb
        exact .inr (.inl ⟨op, rest, rfl, hc, (Host.Outcome.next.inj hb).symm⟩)
      | some i =>
        simp only [commandStep, hc] at hb
        exact .inr (.inr (.inl ⟨op, rest, i, rfl, hc, hb⟩))

/-- A command's operation is START, POLL_END or BLOCKING_READ. -/
theorem commandOp_cases {op : BitVec 2} {i : Instr} (h : commandOp op = some i) :
    (op = 0b01#2 ∧ i = .start) ∨ (op = 0b10#2 ∧ i = .pollEnd) ∨ (op = 0b11#2 ∧ i = .blockingRead) := by
  revert op; revert i
  have : ∀ op : BitVec 2, commandOp op = none ∧ op = 0#2 ∨ commandOp op = some .start ∧ op = 1#2 ∨
      commandOp op = some .pollEnd ∧ op = 2#2 ∨ commandOp op = some .blockingRead ∧ op = 3#2 := by decide
  intro i op h
  rcases this op with ⟨h', rfl⟩ | ⟨h', rfl⟩ | ⟨h', rfl⟩ | ⟨h', rfl⟩ <;> rw [h'] at h <;> simp at h <;> simp [← h]

/-- What an operation other than a host command keeps besides. -/
theorem exec_keeps_host {i : Instr} (h : exec i s = .next t) (hi : i ≠ .start ∧ i ≠ .pollEnd ∧ i ≠ .blockingRead) :
    t.pos.host = s.pos.host ∧ t.pos.curOp = s.pos.curOp ∧ t.stat = s.stat ∧ t.acq = s.acq := by
  cases i with
  | wrCtl c => obtain ⟨-, rfl⟩ := issueControl_eq_next h; simp
  | sendSingle => obtain ⟨-, -, rfl⟩ := issueBcw_eq_next h; simp
  | sendStart => obtain ⟨-, -, rfl⟩ := issueBcw_eq_next h; simp
  | sendCont => obtain ⟨-, -, rfl⟩ := issueBcw_eq_next h; simp
  | sendFinish => obtain ⟨-, -, rfl⟩ := issueBcw_eq_next h; simp
  | sendErrStop => obtain ⟨-, -, rfl⟩ := issueBcw_eq_next h; simp
  | recvStartAck => obtain ⟨-, -, rfl⟩ := issueBcw_eq_next h; simp
  | recvFinish => obtain ⟨-, -, rfl⟩ := issueBcw_eq_next h; simp
  | start => simp at hi
  | pollEnd => simp at hi
  | blockingRead => simp at hi
  | _ => obtain rfl := Host.Outcome.next.inj h; simp [enterSend, loadSend1, loadSend2, loadSend3]

/-- What the operation at a transport label keeps; only a wait leaves a spin behind. -/
theorem exec_trans_keeps {l : TransLabel} {i : Instr} (hl : transPick l s = .op i s) (he : exec i s = .next t) :
    t.pos.proto = s.pos.proto ∧ t.pos.trans = s.pos.trans ∧ t.scr.rr = s.scr.rr ∧ t.scr.mag = s.scr.mag ∧
    (s.pos.leaf = none → t.pos.leaf = none ∨ (t.pos.leaf = some .waitIdle ∧ l.isWait = true)) := by
  cases l <;> simp only [transPick] at hl
  case sC0 =>
    cases hl
    split at he <;> obtain ⟨-, -, rfl⟩ := issueBcw_eq_next he <;> simp +contextual
  case sC =>
    cases hl
    split at he <;> obtain ⟨-, -, rfl⟩ := issueBcw_eq_next he <;> simp +contextual
  case sD =>
    cases hx : txAt s.scr s.scr.i <;> rw [hx] at hl <;> cases hl
    obtain rfl := Host.Outcome.next.inj he; simp +contextual
  case sAB => cases hl; obtain ⟨-, -, rfl⟩ := issueBcw_eq_next he; simp +contextual
  case rC0 => cases hl; obtain ⟨-, -, rfl⟩ := issueBcw_eq_next he; simp +contextual
  case rC1 => cases hl; obtain ⟨-, -, rfl⟩ := issueBcw_eq_next he; simp +contextual
  all_goals (cases hl; obtain rfl := Host.Outcome.next.inj he; simp +contextual [TransLabel.isWait])

/-- What the position's advance keeps, from whatever position the operation was picked at. -/
theorem afterOp_keeps (p : Pos) (s : State) :
    (afterOp p s).cfg = s.cfg ∧ (afterOp p s).st = s.st ∧ (afterOp p s).rd = s.rd ∧ (afterOp p s).port = s.port ∧
    (afterOp p s).hostIn = s.hostIn ∧ (afterOp p s).answers = s.answers ∧ (afterOp p s).draws = s.draws ∧
    (afterOp p s).trace = s.trace ∧ (afterOp p s).slot = s.slot ∧ (afterOp p s).pos.curOp = s.pos.curOp ∧
    (p.host.isSome = s.pos.host.isSome → (afterOp p s).pos.host.isSome = s.pos.host.isSome) := by
  unfold afterOp
  split
  · simp
  · split
    · simp [advanceTrans_keeps]
    · split
      · simp
      · split
        · simp [advanceProto_keeps]
        · split
          · simp
          · split
            · next l hl => cases l <;> simp [advanceHost, hl]
            · simp

/-- At rest an operation has no sequence to carry on. -/
theorem afterOp_rest (t : State) : afterOp Pos.rest t = t := by
  unfold afterOp
  cases t.pos.leaf <;> cases t.pos.trans <;> cases t.pos.proto <;> rfl

end Sys2Proof.Machine
end

