-- ==== Sys2Proof/Laws/PerInstr.lean ====
section
/-! SUPPORT. Statements made for every operation: the shape of its encoding (30_encoding R117, log entry 12). -/
namespace Sys2Proof.Laws.EncodingShape

/-- The encoding of `i` is its row's value, which fits in the width of its format, and at most three operand bytes. -/
def Statement (i : Instr) : Prop :=
  ∃ v bs, encode i = v :: bs ∧ v.toNat < 2 ^ formatWidth (formatOf i) ∧ bs.length ≤ 3

theorem rdStatus : Statement .rdStatus :=
  ⟨_, _, rfl, by decide, by decide⟩

theorem wrAddr (a : BitVec 7) (d : Dir) : Statement (.wrAddr a d) :=
  ⟨_, _, rfl, by simp [formatOf, formatWidth], by simp⟩

theorem wrData (b : Byte) : Statement (.wrData b) :=
  ⟨_, _, rfl, by simp [formatOf, formatWidth], by simp⟩

theorem wrCtl (c : BitVec 4) : Statement (.wrCtl c) :=
  ⟨_, _, rfl, by simp [formatOf, formatWidth], by simp⟩

theorem rdData : Statement .rdData :=
  ⟨_, _, rfl, by decide, by decide⟩

theorem rdPin : Statement .rdPin :=
  ⟨_, _, rfl, by decide, by decide⟩

theorem sendSingle : Statement .sendSingle :=
  ⟨_, _, rfl, by decide, by decide⟩

theorem sendStart : Statement .sendStart :=
  ⟨_, _, rfl, by decide, by decide⟩

theorem sendCont : Statement .sendCont :=
  ⟨_, _, rfl, by decide, by decide⟩

theorem sendFinish : Statement .sendFinish :=
  ⟨_, _, rfl, by decide, by decide⟩

theorem sendErrStop : Statement .sendErrStop :=
  ⟨_, _, rfl, by decide, by decide⟩

theorem recvStartAck : Statement .recvStartAck :=
  ⟨_, _, rfl, by decide, by decide⟩

theorem recvFinish : Statement .recvFinish :=
  ⟨_, _, rfl, by decide, by decide⟩

theorem waitIdle : Statement .waitIdle :=
  ⟨_, _, rfl, by decide, by decide⟩

theorem errSample : Statement .errSample :=
  ⟨_, _, rfl, by decide, by decide⟩

theorem send1 (b0 : Byte) : Statement (.send1 b0) :=
  ⟨_, _, rfl, by simp [formatOf, formatWidth], by simp⟩

theorem send2 (b0 b1 : Byte) : Statement (.send2 b0 b1) :=
  ⟨_, _, rfl, by simp [formatOf, formatWidth], by simp⟩

theorem send3 (b0 b1 b2 : Byte) : Statement (.send3 b0 b1 b2) :=
  ⟨_, _, rfl, by simp [formatOf, formatWidth], by simp⟩

theorem recv2 : Statement .recv2 :=
  ⟨_, _, rfl, by decide, by decide⟩

theorem decode : Statement .decode :=
  ⟨_, _, rfl, by decide, by decide⟩

theorem cfgLatchClr : Statement .cfgLatchClr :=
  ⟨_, _, rfl, by decide, by decide⟩

theorem cfgLatchSet : Statement .cfgLatchSet :=
  ⟨_, _, rfl, by decide, by decide⟩

theorem beginConv : Statement .beginConv :=
  ⟨_, _, rfl, by decide, by decide⟩

theorem readResult : Statement .readResult :=
  ⟨_, _, rfl, by decide, by decide⟩

theorem waitDone : Statement .waitDone :=
  ⟨_, _, rfl, by decide, by decide⟩

theorem start : Statement .start :=
  ⟨_, _, rfl, by decide, by decide⟩

theorem pollEnd : Statement .pollEnd :=
  ⟨_, _, rfl, by decide, by decide⟩

theorem blockingRead : Statement .blockingRead :=
  ⟨_, _, rfl, by decide, by decide⟩

end Sys2Proof.Laws.EncodingShape
end

