-- ==== Sys2Proof/Laws/Runs.lean ====
section
/-! SUPPORT. Whole runs of the transport sequences in the form of Laws/During.lean: a one-byte send, a three-byte send and one
receive attempt, each up to its end, with every wait ending at its first read (41_transport R182, R186); and a wait that
spins through busy answers (R180), or busy samples (43_acquisition R264); and a whole call of a primitive by a protocol
operation (42_sensor_protocol R225, R228). -/
namespace Sys2Proof.Machine

/-- The state in which WAIT_IDLE spins, `k` busy answers on. -/
theorem run_spin (busy : List Word) :
    ∀ (s : State) (rest : List Word), configOk s → s.hostIn = [] → pick s = .op .waitIdle s → s.answers = busy ++ rest →
      (∀ b ∈ busy, ¬ idleAnswer s.cfg b) →
      ∃ v, runFor busy.length s = .next { s with
        pos := { s.pos with leaf := if busy = [] then s.pos.leaf else some .waitIdle }
        st := v
        answers := rest
        draws := s.draws + busy.length
        trace := (busy.map (evRS s.cfg)).reverse ++ s.trace } := by
  induction busy with
  | nil => intro s rest hc hh hp ha hb; exact ⟨s.st, by simp at ha; simp [← ha]⟩
  | cons w ws ih =>
    intro s rest hc hh hp ha hb
    have hn : nextAnswer s = w := by simp [nextAnswer, ha]
    have hw : (statusOf s.cfg.layout w).busy = true := by simpa [idleAnswer] using hb w (by simp)
    have hs : step s = .next (waitIdlePass s) := by
      rw [step_of_configOk hc, boundary_nil hh, seqStep_op hp]
      show Host.Outcome.next (afterOp s.pos (waitIdlePass s)) = _
      simp [afterOp, hn, hw]
    obtain ⟨v, hv⟩ := ih (waitIdlePass s) rest hc hh (by simp [pick, hn, hw]) (by simp [ha])
      (by simpa using fun b h => hb b (by simp [h]))
    refine ⟨v, ?_⟩
    rw [List.length_cons, runFor_step hs, hv]
    simp only [waitIdlePass_cfg, waitIdlePass_trace, waitIdlePass_draws, waitIdlePass_pos, hn, hw]
    simp [evRS, waitIdlePass, rdStatus, State.atLeaf, State.setPos, State.setSt, memRead, State.record, afterDraw,
      State.setOracle]
    omega

/-- The state in which WAIT_DONE spins, as many busy samples on (43_acquisition R264). -/
theorem run_pin_spin (busy : List Word) :
    ∀ (s : State) (rest : List Word), configOk s → s.hostIn = [] → pick s = .op .waitDone s → s.answers = busy ++ rest →
      (∀ b ∈ busy, pinOf s.cfg.pinMask b = s.cfg.busyLevel) →
      runFor busy.length s = .next { s with
        pos := { s.pos with leaf := if busy = [] then s.pos.leaf else some .waitDone }
        scr := if busy = [] then s.scr else { s.scr with p := s.cfg.busyLevel }
        answers := rest
        draws := s.draws + busy.length
        trace := (busy.map (evRP s.cfg)).reverse ++ s.trace } := by
  induction busy with
  | nil => intro s rest hc hh hp ha hb; simp at ha; simp [← ha]
  | cons w ws ih =>
    intro s rest hc hh hp ha hb
    have hn : nextAnswer s = w := by simp [nextAnswer, ha]
    have hw : pinOf s.cfg.pinMask w = s.cfg.busyLevel := hb w (by simp)
    have hu : waitDonePass s = { s with
        pos := { s.pos with leaf := some .waitDone }
        scr := { s.scr with p := s.cfg.busyLevel }
        answers := ws ++ rest
        draws := s.draws + 1
        trace := evRP s.cfg w :: s.trace } := by
      simp [waitDonePass, rdPin, memRead, afterDraw, State.atLeaf, State.setPos, State.setScr, State.record,
        State.setOracle, pinBusy, hn, hw, ha, evRP]
    have hs : step s = .next (waitDonePass s) := by
      rw [step_of_configOk hc, boundary_nil hh, seqStep_op hp]
      show Host.Outcome.next (afterOp s.pos (waitDonePass s)) = _
      rw [hu]
      rfl
    rw [List.length_cons, runFor_step hs, hu,
      ih _ rest (by exact hc) (by exact hh) rfl rfl (by simpa using fun b h => hb b (by simp [h]))]
    cases ws <;> simp [evRP] <;> omega

/-- At a wait label of a transport sequence: busy answers, then the one that ends the wait. -/
theorem run_wait {s : State} {l : TransLabel} {busy : List Word} {w : Word} {rest : List Word} (hl : l.isWait = true)
    (hc : configOk s) (hh : s.hostIn = []) (hf : s.pos.leaf = none) (ht : s.pos.trans = some l)
    (ha : s.answers = busy ++ w :: rest) (hb : ∀ b ∈ busy, ¬ idleAnswer s.cfg b) (hw : idleAnswer s.cfg w) :
    runFor (busy.length + 1) s = .next (advanceTrans l { s with
      st := statusOf s.cfg.layout w
      answers := rest
      draws := s.draws + busy.length + 1
      trace := evRS s.cfg w :: ((busy.map (evRS s.cfg)).reverse ++ s.trace) }) := by
  have hk : ∀ u : State, u.pos.trans = some l → (u.pos.leaf = none ∨ u.pos.leaf = some .waitIdle) →
      pick u = .op .waitIdle u := by
    rintro u h1 (h2 | h2)
    · cases l <;> simp [TransLabel.isWait] at hl <;> simp [pick, h2, h1, transPick]
    · simp [pick, h2]
  obtain ⟨v, hv⟩ := run_spin busy s (w :: rest) hc hh (hk s ht (.inl hf)) ha hb
  have hi : (statusOf s.cfg.layout w).busy = false := hw
  have hs : ∀ u : State, u.pos.trans = some l → (u.pos.leaf = none ∨ u.pos.leaf = some .waitIdle) → configOk u →
      u.hostIn = [] → u.answers = w :: rest → u.cfg = s.cfg →
      step u = .next (advanceTrans l { u with
        pos := { u.pos with leaf := none }
        st := statusOf s.cfg.layout w
        answers := rest
        draws := u.draws + 1
        trace := evRS s.cfg w :: u.trace }) := by
    intro u h1 h2 h3 h4 h5 h6
    have hn : nextAnswer u = w := by simp [nextAnswer, h5]
    have hu : waitIdlePass u = { u with
        pos := { u.pos with leaf := none }
        st := statusOf s.cfg.layout w
        answers := rest
        draws := u.draws + 1
        trace := evRS s.cfg w :: u.trace } := by
      simp [waitIdlePass, rdStatus, State.atLeaf, State.setPos, State.setSt, memRead, State.record, afterDraw,
        State.setOracle, hn, evRS, h6, h5, hi]
    rw [step_of_configOk h3, boundary_nil h4, seqStep_op (hk u h1 h2)]
    show Host.Outcome.next (afterOp u.pos (waitIdlePass u)) = _
    rw [hu]
    simp [afterOp, h1]
  rw [runFor_add hv]
  have := runFor_step (k := 0) (hs { s with
        pos := { s.pos with leaf := if busy = [] then s.pos.leaf else some .waitIdle }
        st := v
        answers := w :: rest
        draws := s.draws + busy.length
        trace := (busy.map (evRS s.cfg)).reverse ++ s.trace } ht (by by_cases h : busy = [] <;> simp [h, hf]) hc hh rfl rfl)
  rw [show (1 : Nat) = 0 + 1 from rfl, this]
  rw [← hf]
  rfl

section
variable {s : State} {r : Scratch} {v : PortStatus} {b : Byte} {p : BusPort} {ws : List Word} {k : Nat} {es : List Event}
variable (hc : configOk s) (hh : s.hostIn = []) (hf : s.pos.leaf = none)

include hc hh hf

theorem run_send1 {w0 w1 w2 : Word} (hn : r.n = 1) (h0 : idleAnswer s.cfg w0) (h1 : idleAnswer s.cfg w1) :
    runFor 6 (s.during (some .sW0) r v b p (w0 :: w1 :: w2 :: ws) k es) =
      .next (endTransport false (s.during (some .sEF) { r with i := 1, e := errorOf s.cfg w2 } (statusOf s.cfg.layout w2) b
        ⟨s.cfg.devAddr, .send, r.tx0⟩ ws (k + 3)
        ([evRS s.cfg w2, evRS s.cfg w1, evWC s.cfg .send 0b0111 r.tx0, evWD s.cfg r.tx0, evWA s.cfg .send,
          evRS s.cfg w0] ++ es))) := by
  rw [runFor_step (during_sW0 hc hh hf h0), runFor_step (during_sSA hc hh hf), runFor_step (during_sD0 hc hh hf),
    runFor_step (during_sC0_first hc hh hf hn rfl rfl), runFor_step (during_sW1 hc hh hf h1),
    show (if (1 : BitVec 2) < r.n then TransLabel.sE else TransLabel.sEF) = .sEF by rw [hn]; rfl,
    runFor_step (during_sEF hc hh hf)]
  rfl

theorem run_send3 {w0 w1 e1 w2 e2 w3 ef : Word} (hn : r.n = 3) (h0 : idleAnswer s.cfg w0) (h1 : idleAnswer s.cfg w1)
    (h2 : idleAnswer s.cfg w2) (h3 : idleAnswer s.cfg w3) (he1 : errorOf s.cfg e1 = 0) (he2 : errorOf s.cfg e2 = 0) :
    runFor 14 (s.during (some .sW0) r v b p (w0 :: w1 :: e1 :: w2 :: e2 :: w3 :: ef :: ws) k es) =
      .next (endTransport false (s.during (some .sEF) { r with i := 3, e := errorOf s.cfg ef } (statusOf s.cfg.layout ef) b
        ⟨s.cfg.devAddr, .send, r.tx2⟩ ws (k + 7)
        ([evRS s.cfg ef, evRS s.cfg w3, evWC s.cfg .send 0b0101 r.tx2, evWD s.cfg r.tx2, evRS s.cfg e2,
          evRS s.cfg w2, evWC s.cfg .send 0b0001 r.tx1, evWD s.cfg r.tx1, evRS s.cfg e1, evRS s.cfg w1,
          evWC s.cfg .send 0b0011 r.tx0, evWD s.cfg r.tx0, evWA s.cfg .send, evRS s.cfg w0] ++ es))) := by
  have hn1 : r.n ≠ 1 := by rw [hn]; decide
  rw [runFor_step (during_sW0 hc hh hf h0), runFor_step (during_sSA hc hh hf), runFor_step (during_sD0 hc hh hf),
    runFor_step (during_sC0_more hc hh hf hn1 rfl rfl), runFor_step (during_sW1 hc hh hf h1),
    show (if (1 : BitVec 2) < r.n then TransLabel.sE else TransLabel.sEF) = .sE by rw [hn]; rfl,
    runFor_step (during_sE hc hh hf), he1, show (if sendAborts 0 = true then TransLabel.sAB else TransLabel.sD) = .sD from rfl,
    runFor_step (during_sD hc hh hf (x := r.tx1) rfl), runFor_step (during_sC_mid hc hh hf (by simp [hn]) rfl rfl),
    runFor_step (during_sW hc hh hf h2)]
  simp only [show (if (1 : BitVec 2) + 1 < r.n then TransLabel.sE else TransLabel.sEF) = .sE by rw [hn]; rfl]
  rw [runFor_step (during_sE hc hh hf), he2, show (if sendAborts 0 = true then TransLabel.sAB else TransLabel.sD) = .sD from rfl,
    runFor_step (during_sD hc hh hf (x := r.tx2) rfl), runFor_step (during_sC_last hc hh hf (by simp [hn]) rfl rfl),
    runFor_step (during_sW hc hh hf h3)]
  simp only [show (if (1 : BitVec 2) + 1 + 1 < r.n then TransLabel.sE else TransLabel.sEF) = .sEF by rw [hn]; rfl]
  rw [runFor_step (during_sEF hc hh hf)]
  rfl

theorem run_attempt {a : Attempt} (hi : a.idle s.cfg) :
    runFor 9 (s.during (some .rW0) r v b p (a.answers ++ ws) k es) =
      .next (endAttempt (s.during (some .rE)
        { r with rb0 := byteOf s.cfg.layout a.d0, rb1 := byteOf s.cfg.layout a.d1, e := errorOf s.cfg a.we }
        (statusOf s.cfg.layout a.we) (byteOf s.cfg.layout a.d1) ⟨s.cfg.devAddr, .recv, p.byte⟩ ws (k + 6)
        (a.events s.cfg p.byte ++ es))) := by
  obtain ⟨h0, h1, h2⟩ := hi
  show runFor 9 (s.during (some .rW0) r v b p (a.w0 :: a.w1 :: a.d0 :: a.w2 :: a.d1 :: a.we :: ws) k es) = _
  rw [runFor_step (during_rW0 hc hh hf h0), runFor_step (during_rSA hc hh hf), runFor_step (during_rC0 hc hh hf rfl rfl),
    runFor_step (during_rW1 hc hh hf h1), runFor_step (during_rB0 hc hh hf), runFor_step (during_rC1 hc hh hf rfl rfl),
    runFor_step (during_rW2 hc hh hf h2), runFor_step (during_rB1 hc hh hf), runFor_step (during_rE hc hh hf)]
  rfl

end

/-! ### A primitive called at a label of BEGIN_CONV or READ_RESULT, up to its end -/

section
variable {s : State} {l : ProtoLabel} {ws : List Word}

/-- A primitive that a protocol operation called in state `s` has ended in `z`: it consumed answers down to `ws`, performed the
events `es` (newest first), reported `e` and not exhausted, and left the rest alone (41_transport R188). -/
def Called (s : State) (e : BitVec 3) (ws : List Word) (es : List Event) (z : State) : Prop :=
  transportFrame s z ∧ z.scr.e = e ∧ z.scr.x = false ∧ z.stat.lastErr = e ∧ z.stat.accErr = s.stat.accErr ||| e ∧
  z.stat.anyExh = s.stat.anyExh ∧ z.answers = ws ∧ z.trace = es ++ s.trace

/-- The end of a primitive in progress is such a `z`, from where the calling protocol operation goes on. -/
theorem called_of_end {r : Scratch} {v : PortStatus} {b : Byte} {p : BusPort} {k : Nat} {es : List Event} {e : BitVec 3}
    {t : Option TransLabel}
    (he : r.e = e) (h1 : r.cfgWord = s.scr.cfgWord) (h2 : r.rr = s.scr.rr) (h3 : r.mag = s.scr.mag) (h4 : r.p = s.scr.p) :
    ∃ z, endTransport false (s.during t r v b p ws k (es ++ s.trace)) = returnToProto z ∧ Called s e ws es z ∧
      z.scr.rb0 = r.rb0 ∧ z.scr.rb1 = r.rb1 := by
  subst he
  refine ⟨_, rfl, ⟨⟨rfl, rfl, rfl, rfl, rfl, rfl, rfl, h1, h2, h3, h4, ?_⟩, rfl, rfl, rfl, rfl, ?_, rfl, rfl⟩, rfl, rfl⟩ <;>
    simp [endPrimitive, endPrimitiveFlags]

variable (hc : configOk s) (hh : s.hostIn = []) (hf : s.pos.leaf = none) (ht : s.pos.trans = none) (hp : s.pos.proto = some l)

include hc hh hf ht hp

/-- A three-byte send with idle waits and no error before its last byte: the call and fourteen events (R185). -/
theorem run_call_send3 {b0 b1 b2 : Byte} {w0 w1 e1 w2 e2 w3 ef : Word} (ho : exec (protoOp l s) s = exec (.send3 b0 b1 b2) s)
    (ha : s.answers = w0 :: w1 :: e1 :: w2 :: e2 :: w3 :: ef :: ws) (h0 : idleAnswer s.cfg w0) (h1 : idleAnswer s.cfg w1)
    (h2 : idleAnswer s.cfg w2) (h3 : idleAnswer s.cfg w3) (he1 : errorOf s.cfg e1 = 0) (he2 : errorOf s.cfg e2 = 0) :
    ∃ z, runFor 15 s = .next (advanceProto l z) ∧ Called s (errorOf s.cfg ef) ws
      [evRS s.cfg ef, evRS s.cfg w3, evWC s.cfg .send 0b0101 b2, evWD s.cfg b2, evRS s.cfg e2, evRS s.cfg w2,
        evWC s.cfg .send 0b0001 b1, evWD s.cfg b1, evRS s.cfg e1, evRS s.cfg w1, evWC s.cfg .send 0b0011 b0,
        evWD s.cfg b0, evWA s.cfg .send, evRS s.cfg w0] z := by
  have e : enterSend (loadSend3 b0 b1 b2 s) = s.during (some .sW0) { s.scr with tx0 := b0, tx1 := b1, tx2 := b2, n := 3 } s.st
      s.rd s.port (w0 :: w1 :: e1 :: w2 :: e2 :: w3 :: ef :: ws) s.draws s.trace := by rw [← ha]; rfl
  obtain ⟨z, hz, hd, -⟩ := called_of_end (s := s) (ws := ws)
    (r := { s.scr with tx0 := b0, tx1 := b1, tx2 := b2, n := 3, i := 3, e := errorOf s.cfg ef }) rfl rfl rfl rfl rfl
  refine ⟨z, ?_, hd⟩
  have hq : z.pos.proto = some l := by rw [hd.1.2.2.2.2.2.2.1]; exact hp
  rw [runFor_step (step_at_proto hc hh hf ht hp ho hf), show ((enterSend (loadSend3 b0 b1 b2 s)).pos.trans.isSome) = true from rfl,
    if_pos rfl, e, run_send3 hc hh hf rfl h0 h1 h2 h3 he1 he2, hz]
  simp [returnToProto, hq]

/-- A one-byte send with idle waits: the call and six events (R183). -/
theorem run_call_send1 {b0 : Byte} {w0 w1 w2 : Word} (ho : exec (protoOp l s) s = exec (.send1 b0) s)
    (ha : s.answers = w0 :: w1 :: w2 :: ws) (h0 : idleAnswer s.cfg w0) (h1 : idleAnswer s.cfg w1) :
    ∃ z, runFor 7 s = .next (advanceProto l z) ∧ Called s (errorOf s.cfg w2) ws
      [evRS s.cfg w2, evRS s.cfg w1, evWC s.cfg .send 0b0111 b0, evWD s.cfg b0, evWA s.cfg .send, evRS s.cfg w0] z := by
  have e : enterSend (loadSend1 b0 s) = s.during (some .sW0) { s.scr with tx0 := b0, n := 1 } s.st
      s.rd s.port (w0 :: w1 :: w2 :: ws) s.draws s.trace := by rw [← ha]; rfl
  obtain ⟨z, hz, hd, -⟩ := called_of_end (s := s) (ws := ws)
    (r := { s.scr with tx0 := b0, n := 1, i := 1, e := errorOf s.cfg w2 }) rfl rfl rfl rfl rfl
  refine ⟨z, ?_, hd⟩
  have hq : z.pos.proto = some l := by rw [hd.1.2.2.2.2.2.2.1]; exact hp
  rw [runFor_step (step_at_proto hc hh hf ht hp ho hf), show ((enterSend (loadSend1 b0 s)).pos.trans.isSome) = true from rfl,
    if_pos rfl, e, run_send1 hc hh hf rfl h0 h1, hz]
  simp [returnToProto, hq]

/-- A receive whose first attempt succeeds: the call and nine events (R186). -/
theorem run_call_recv2 {a : Attempt} (ho : exec (protoOp l s) s = exec .recv2 s) (ha : s.answers = a.answers ++ ws)
    (hi : a.idle s.cfg) (hr : receiveRetries (errorOf s.cfg a.we) = false) :
    ∃ z, runFor 10 s = .next (advanceProto l z) ∧
      Called s (errorOf s.cfg a.we) ws (a.events s.cfg s.port.byte) z ∧ z.scr.rb0 ++ z.scr.rb1 = a.raw s.cfg := by
  have e : enterRecv2 s = s.during (some .rW0) { s.scr with att := 1 } s.st s.rd s.port (a.answers ++ ws) s.draws s.trace := by
    rw [← ha]; rfl
  obtain ⟨z, hz, hd, hb0, hb1⟩ := called_of_end (s := s) (ws := ws) (es := a.events s.cfg s.port.byte)
    (t := some .rE) (v := statusOf s.cfg.layout a.we) (b := byteOf s.cfg.layout a.d1) (p := ⟨s.cfg.devAddr, .recv, s.port.byte⟩) (k := s.draws + 6)
    (r := { s.scr with
      att := 1, rb0 := byteOf s.cfg.layout a.d0, rb1 := byteOf s.cfg.layout a.d1, e := errorOf s.cfg a.we }) rfl rfl rfl rfl rfl
  have hq : z.pos.proto = some l := by rw [hd.1.2.2.2.2.2.2.1]; exact hp
  refine ⟨z, ?_, hd, by rw [hb0, hb1]; rfl⟩
  rw [runFor_step (step_at_proto hc hh hf ht hp ho hf), show ((enterRecv2 s).pos.trans.isSome) = true from rfl, if_pos rfl, e,
    run_attempt hc hh hf hi]
  have hx : returnToProto z = advanceProto l z := by simp [returnToProto, hq]
  unfold endAttempt
  rw [if_neg (by rw [during_scr, hr]; decide), ← hx, ← hz]

end

end Sys2Proof.Machine
end

