-- ==== Sys2Proof/Tests/Slice0.lean ====
section
/-! SUPPORT. Tests on small states, with expected results from the spec's own tables and vectors (95_test_vectors unless a comment
says otherwise), and a witness for the hypotheses of each statement. -/
namespace Sys2Proof.Tests
open Sys2Proof Sys2Proof.Machine

/-! ### Helpers -/

/-- The next state, where there is one. -/
def next? (o : Host.Outcome State Fault Refusal) : Option State :=
  match o with
  | .next t => some t
  | .fault _ => none
  | .refused _ => none

/-- The reason of a refusal. -/
def refusal? (o : Host.Outcome State Fault Refusal) : Option Refusal :=
  match o with
  | .next _ => none
  | .fault _ => none
  | .refused r => some r

/-- The newest event after an operation. -/
def event? (o : Host.Outcome State Fault Refusal) : Option Event := (next? o).bind (fun t => t.trace.head?)

/-- The reset state with these coming answers. -/
def fed (ws : List Word) : State := { State.reset with answers := ws }

/-- The reset state with these coming moves of the host. -/
def told (ms : List HostMove) : State := { State.reset with hostIn := ms }

/-- A state at a label of a transport sequence, with these answers. -/
def atTransport (l : TransLabel) (ws : List Word) : State := (fed ws).atTrans (some l)

/-- The reset state with the receive direction last written. -/
def receiving : State := { State.reset with port := ⟨0x47, .recv, 0⟩ }

/-- A receive attempt that succeeds with 0x1B, 0x4E (V-R1). -/
def goodTry : Attempt := ⟨0x00, 0x00, 0x1B, 0x00, 0x4E, 0x00⟩

/-- A receive attempt that ends in a bus error (V-R3). -/
def badTry : Attempt := ⟨0x00, 0x00, 0x12, 0x00, 0x34, 0x12⟩

def zeros (n : Nat) : List Word := List.replicate n 0

theorem reset_configOk : paramsRefusal State.reset.cfg = none := by decide

theorem fed_configOk (ws : List Word) : configOk (fed ws) := reset_configOk

/-! ### Well-formedness -/

/-- 30_encoding R107: 0b0000 is the control half of no bus command word. -/
theorem test_wf_refuses_control_zero : (Instr.wrCtl 0b0000#4).wf = false := by decide

theorem test_wf_accepts_every_bcw_control :
    [0b0111#4, 0b0011#4, 0b0001#4, 0b0101#4, 0b0100#4, 0b1011#4].all (fun c => (Instr.wrCtl c).wf) = true := by decide

/-! ### Decoding: the match values of R117, the tags of R111, the command words of R107, the op codes of R110 -/

theorem test_decode_rdStatus : decode .port [0b000#8] = .ok (.rdStatus, []) := by rfl
theorem test_decode_wrAddr : decode .port [0b001#8, 0b10001111#8] = .ok (.wrAddr 0x47#7 .recv, []) := by rfl
theorem test_decode_wrData : decode .port [0b010#8, 0xCA#8] = .ok (.wrData 0xCA#8, []) := by rfl
theorem test_decode_wrCtl : decode .port [0b011#8, 0b00001011#8] = .ok (.wrCtl 0b1011#4, []) := by rfl
theorem test_decode_rdData : decode .port [0b100#8] = .ok (.rdData, []) := by rfl
theorem test_decode_rdPin : decode .port [0b101#8] = .ok (.rdPin, []) := by rfl
theorem test_decode_sendSingle : decode .bcw [0b00111#8] = .ok (.sendSingle, []) := by rfl
theorem test_decode_sendStart : decode .bcw [0b00011#8] = .ok (.sendStart, []) := by rfl
theorem test_decode_sendCont : decode .bcw [0b00001#8] = .ok (.sendCont, []) := by rfl
theorem test_decode_sendFinish : decode .bcw [0b00101#8] = .ok (.sendFinish, []) := by rfl
theorem test_decode_sendErrStop : decode .bcw [0b00100#8] = .ok (.sendErrStop, []) := by rfl
theorem test_decode_recvStartAck : decode .bcw [0b11011#8] = .ok (.recvStartAck, []) := by rfl
theorem test_decode_recvFinish : decode .bcw [0b10101#8] = .ok (.recvFinish, []) := by rfl
theorem test_decode_waitIdle : decode .seq [0x0#8] = .ok (.waitIdle, []) := by rfl
theorem test_decode_errSample : decode .seq [0x1#8] = .ok (.errSample, []) := by rfl
theorem test_decode_send1 : decode .seq [0x2#8, 0x01#8] = .ok (.send1 0x01#8, []) := by rfl
theorem test_decode_send2 : decode .seq [0x3#8, 0x01#8, 0xCA#8] = .ok (.send2 0x01#8 0xCA#8, []) := by rfl
theorem test_decode_send3 : decode .seq [0x4#8, 0x01#8, 0xCA#8, 0x10#8] = .ok (.send3 0x01#8 0xCA#8 0x10#8, []) := by rfl
theorem test_decode_recv2 : decode .seq [0x5#8] = .ok (.recv2, []) := by rfl
theorem test_decode_decode : decode .seq [0x6#8] = .ok (.decode, []) := by rfl
theorem test_decode_cfgLatchClr : decode .seq [0x7#8] = .ok (.cfgLatchClr, []) := by rfl
theorem test_decode_cfgLatchSet : decode .seq [0x8#8] = .ok (.cfgLatchSet, []) := by rfl
theorem test_decode_beginConv : decode .seq [0x9#8] = .ok (.beginConv, []) := by rfl
theorem test_decode_readResult : decode .seq [0xA#8] = .ok (.readResult, []) := by rfl
theorem test_decode_waitDone : decode .seq [0xB#8] = .ok (.waitDone, []) := by rfl
theorem test_decode_start : decode .hcmd [0b01#8] = .ok (.start, []) := by rfl
theorem test_decode_pollEnd : decode .hcmd [0b10#8] = .ok (.pollEnd, []) := by rfl
theorem test_decode_blockingRead : decode .hcmd [0b11#8] = .ok (.blockingRead, []) := by rfl

/-- R113: the reserved values at the edges of each format. -/
theorem test_decode_reserved :
    decode .bcw [0x00#8] = .error .reservedBcw ∧ decode .bcw [0x02#8] = .error .reservedBcw ∧
    decode .bcw [0x1F#8] = .error .reservedBcw ∧ decode .hcmd [0b00#8] = .error .reservedCommand ∧
    decode .port [0b110#8] = .error .unusedPortTag ∧ decode .port [0b111#8] = .error .unusedPortTag ∧
    decode .seq [0xC#8] = .error .unusedSeqTag ∧ decode .seq [0xF#8] = .error .unusedSeqTag ∧
    decode .port [0b011#8, 0x10#8] = .error .controlBits := by
  refine ⟨rfl, rfl, rfl, rfl, rfl, rfl, rfl, rfl, rfl⟩

/-- A table word of a format's own width is read in that format (log entry 12). -/
theorem test_table_words :
    decodeTableWord 3 0b100 = some .rdData ∧ decodeTableWord 5 0x04 = some .sendErrStop ∧
    decodeTableWord 4 0xB = some .waitDone ∧ decodeTableWord 2 0b11 = some .blockingRead ∧
    decodeTableWord 8 0x1B = some .recvStartAck ∧ decodeTableWord 8 0x0A = some .readResult := by
  refine ⟨rfl, rfl, rfl, rfl, rfl, rfl⟩

/-- The word placed by withFetchWord is what the next step runs (40 R154: SEND_FINISH writes 0x00000005). -/
theorem test_fetch_word :
    event? (step (State.reset.withFetchWord 5 0x05)) = some (.launch 0x4 0x5 0x05#5 0 0) := by decide

/-! ### Port micro-operations (40 R141 to R146: the examples) -/

theorem test_rdStatus_adrNack :
    (next? (exec .rdStatus (fed [0x06]))).map (fun t => t.st) = some ⟨false, true, false, false⟩ := by decide

theorem test_wrAddr_receive :
    event? (exec (.wrAddr 0x47 .recv) State.reset) = some (.write .addr 0x0 0x8F) := by decide

theorem test_wrAddr_send :
    event? (exec (.wrAddr 0x47 .send) State.reset) = some (.write .addr 0x0 0x8E) := by decide

theorem test_wrData : event? (exec (.wrData 0xCA) State.reset) = some (.write .data 0x8 0xCA) := by decide

theorem test_wrCtl_receive :
    event? (exec (.wrCtl 0b1011) receiving) = some (.launch 0x4 0x0B 0x1B#5 0x47 0) := by decide

/-- R113: ACK = 1 with D = 0 is reserved. -/
theorem test_wrCtl_reserved : refusal? (exec (.wrCtl 0b1011) State.reset) = some .reservedBcw := by decide

theorem test_rdData : (next? (exec .rdData (fed [0xFFFFFF1B]))).map (fun t => t.rd) = some 0x1B#8 := by decide

theorem test_rdPin_busy : (next? (exec .rdPin (fed [0xFFFFFFFF]))).map (fun t => t.scr.p) = some true := by decide

theorem test_rdPin_done : (next? (exec .rdPin (fed [0xFFFFFFFE]))).map (fun t => t.scr.p) = some false := by decide

/-! ### Bus command words (30_encoding R107: the physical control words) -/

theorem test_sendSingle : event? (exec .sendSingle State.reset) = some (.launch 0x4 0x07 0x07#5 0 0) := by decide
theorem test_sendStart : event? (exec .sendStart State.reset) = some (.launch 0x4 0x03 0x03#5 0 0) := by decide
theorem test_sendCont : event? (exec .sendCont State.reset) = some (.launch 0x4 0x01 0x01#5 0 0) := by decide
theorem test_sendFinish : event? (exec .sendFinish State.reset) = some (.launch 0x4 0x05 0x05#5 0 0) := by decide
theorem test_sendErrStop : event? (exec .sendErrStop State.reset) = some (.launch 0x4 0x04 0x04#5 0 0) := by decide
theorem test_recvStartAck : event? (exec .recvStartAck receiving) = some (.launch 0x4 0x0B 0x1B#5 0x47 0) := by decide
theorem test_recvFinish : event? (exec .recvFinish receiving) = some (.launch 0x4 0x05 0x15#5 0x47 0) := by decide

/-- 30_encoding R112: each control bit goes to its own place of a layout, here RUN to 7, START to 6, STOP to 5, ACK to 4. -/
theorem test_control_word_places :
    [0b0001#4, 0b0010#4, 0b0100#4, 0b1000#4].map (controlWord { State.reset.cfg with
        layout := { BusRegLayout.default with ctlRun := 7, ctlStart := 6, ctlStop := 5, ctlAck := 4 } }) =
      [0x80, 0x40, 0x20, 0x10] := by decide

/-! ### Transport -/

/-- V-W1, V-W3: an idle answer ends the wait; error bits in the spin are ignored. -/
theorem test_waitIdle_ends :
    (next? (exec .waitIdle (fed [0x06]))).map (fun t => (t.pos.leaf, t.scr.e)) = some (none, 0) := by decide

theorem test_waitIdle_spins :
    (next? (exec .waitIdle (fed [0x07]))).map (fun t => t.pos.leaf) = some (some .waitIdle) := by decide

/-- V-E1 to V-E11. -/
theorem test_errSample_table :
    [0x00, 0x06, 0x0A, 0x12, 0x0E, 0x1A, 0x1E, 0x02, 0x05, 0x01, 0xFFFFFFE0].map
        (fun w : Word => (next? (exec .errSample (fed [w]))).map (fun t => t.scr.e)) =
      [0b000, 0b001, 0b010, 0b100, 0b011, 0b110, 0b111, 0b000, 0b001, 0b000, 0b000].map some := by decide

/-- V-E1 to V-E7: which samples abort a send, and which retry a receive. -/
theorem test_error_causes :
    [0b000, 0b001, 0b010, 0b100, 0b011, 0b110, 0b111].map (fun e : BitVec 3 => (sendAborts e, receiveRetries e)) =
      [(false, false), (true, true), (true, false), (true, true), (true, true), (true, true), (true, true)] := by decide

theorem test_send1_loads :
    (next? (exec (.send1 0x02) State.reset)).map (fun t => (t.scr.tx0, t.scr.n, t.pos.trans)) =
      some (0x02, 1, some .sW0) := by decide

theorem test_send2_loads :
    (next? (exec (.send2 0x01 0xCA) State.reset)).map (fun t => (t.scr.tx0, t.scr.tx1, t.scr.n, t.pos.trans)) =
      some (0x01, 0xCA, 2, some .sW0) := by decide

theorem test_send3_loads :
    (next? (exec (.send3 0x01 0xCA 0x10) State.reset)).map (fun t => (t.scr.tx1, t.scr.tx2, t.scr.n)) =
      some (0xCA, 0x10, 3) := by decide

/-- V-S4: an error at S_E goes to the abort, and the abort writes SEND_ERR_STOP (0x04) and ends the send. -/
theorem test_send_aborts :
    (next? (step (atTransport .sE [0x06]))).map (fun t => t.pos.trans) = some (some .sAB) ∧
    (next? (step (atTransport .sAB []))).map (fun t => (t.pos.trans, t.trace.head?)) =
      some (none, some (.launch 0x4 0x04 0x04#5 0 0)) := by decide

/-- V-S2: the final sample is recorded in LAST_ERR and ACC_ERR. -/
theorem test_send_records_final_sample :
    (next? (step (atTransport .sEF [0x0A]))).map (fun t => (t.stat.lastErr, t.stat.accErr, t.pos.trans)) =
      some (0b010, 0b010, none) := by decide

theorem test_recv2_enters :
    (next? (exec .recv2 State.reset)).map (fun t => (t.scr.att, t.pos.trans)) = some (1, some .rW0) := by decide

/-- V-R2: an ADR_NACK at R_E starts the second attempt; V-R4: a DATA_NACK alone does not. -/
theorem test_recv2_retries :
    (next? (step { atTransport .rE [0x06] with scr := { Scratch.zero with att := 1 } })).map
        (fun t => (t.scr.att, t.pos.trans)) = some (2, some .rW0) ∧
    (next? (step { atTransport .rE [0x0A] with scr := { Scratch.zero with att := 1, rb0 := 0x55, rb1 := 0xAA } })).map
        (fun t => (received t.scr, t.scr.x, t.stat.lastErr, t.pos.trans)) = some (0x55AA, false, 0b010, none) := by decide

/-- V-R3: after the fifth failed attempt the bytes are the sentinel. -/
theorem test_recv2_exhausts :
    (next? (step { atTransport .rE [0x12] with scr := { Scratch.zero with att := 5, rb0 := 0x12, rb1 := 0x34 } })).map
        (fun t => (received t.scr, t.scr.x, t.stat.anyExh, t.stat.lastErr)) = some (0xFFFF, true, true, 0b100) := by decide

/-! ### Sensor protocol -/

/-- V-D1 to V-D15. -/
theorem test_decode_table :
    [0x1B4E, 0x0000, 0x0001, 0xFFFF, 0xF001, 0xB000, 0xBFFF, 0xC001, 0x8FFF, 0x7FFF, 0x5A5A, 0x2800, 0x0004, 0x1002,
      0x0ABC].map (fun r : Half => (magnitude r).toNat) =
    [5788, 0, 1, 134184960, 32768, 0, 8386560, 4096, 1048320, 524160, 84800, 8192, 4, 4, 2748] := by decide

theorem test_decode_writes_mag :
    (next? (exec .decode { State.reset with scr := { Scratch.zero with rr := 0x1B4E } })).map (fun t => t.scr.mag) =
      some 0x169C := by decide

/-- V-C1, V-C3. -/
theorem test_cfgLatchClr :
    (next? (exec .cfgLatchClr { State.reset with scr := { Scratch.zero with cfgWord := 0xCA10 } })).map
        (fun t => (t.scr.tx0, t.scr.tx1, t.scr.tx2)) = some (0x01, 0xCA, 0x00) ∧
    (next? (exec .cfgLatchClr { State.reset with scr := { Scratch.zero with cfgWord := 0xFFFF } })).map
        (fun t => (t.scr.tx0, t.scr.tx1, t.scr.tx2)) = some (0x01, 0xFF, 0xEF) := by decide

/-- V-C2, V-C3. -/
theorem test_cfgLatchSet :
    (next? (exec .cfgLatchSet { State.reset with scr := { Scratch.zero with cfgWord := 0xCA00 } })).map
        (fun t => (t.scr.tx0, t.scr.tx1, t.scr.tx2)) = some (0x01, 0xCA, 0x10) ∧
    (next? (exec .cfgLatchSet { State.reset with scr := { Scratch.zero with cfgWord := 0xFFFF } })).map
        (fun t => (t.scr.tx0, t.scr.tx1, t.scr.tx2)) = some (0x01, 0xFF, 0xFF) := by decide

/-- V-P1: the first send of BEGIN_CONV is [0x02, 0xC0, 0x00], the second [0x01, 0xCA, 0x10]. -/
theorem test_beginConv_sends :
    (next? (step (State.reset.atProto (some .bLL)))).map (fun t => (t.scr.tx0, t.scr.tx1, t.scr.tx2)) =
      some (0x02, 0xC0, 0x00) ∧
    (next? (step (State.reset.atProto (some .bCF)))).map (fun t => (t.scr.tx0, t.scr.tx1, t.scr.tx2)) =
      some (0x01, 0xCA, 0x10) := by decide

theorem test_beginConv_enters :
    (next? (exec .beginConv State.reset)).map (fun t => t.pos.proto) = some (some .bLL) := by decide

theorem test_readResult_enters :
    (next? (exec .readResult State.reset)).map (fun t => t.pos.proto) = some (some .tP0) := by decide

/-! ### Acquisition -/

/-- V-W5, in both pin polarities. -/
theorem test_waitDone :
    (next? (exec .waitDone (fed [1]))).map (fun t => t.pos.leaf) = some (some .waitDone) ∧
    (next? (exec .waitDone { fed [1] with cfg := { State.reset.cfg with busyLevel := false } })).map
        (fun t => t.pos.leaf) = some none := by decide

/-- V-A1, V-A2, V-A9: START begins a conversion in Idle only. -/
theorem test_start :
    [Acq.idle, .measuring, .ready].map
        (fun a => (next? (exec .start { State.reset with acq := a })).map (fun t => (t.acq, t.pos.host))) =
      [some (.idle, some .begin), some (.measuring, some (.complete false)), some (.ready, some (.complete false))] := by
  decide

/-- V-A3 to V-A5, V-A8. -/
theorem test_pollEnd :
    [Acq.idle, .measuring, .ready].map
        (fun a => (next? (exec .pollEnd { State.reset with acq := a })).map (fun t => t.pos.host)) =
      [some (some .begin), some (some .pin), some (some .read)] := by decide

/-- V-A6, V-A7: BLOCKING_READ forces Idle. -/
theorem test_blockingRead :
    (next? (exec .blockingRead { State.reset with acq := .measuring })).map (fun t => (t.acq, t.pos.host)) =
      some (.idle, some .begin) := by decide

/-- P5: the reserved op code. -/
theorem test_reserved_command :
    (next? (step (told [.cmd 0b00]))).map coreStatus = some 0x00004000 := by decide

/-- 43 R260: a command while busy only sets CMD_OVERRUN (bit 13), and CORE_BUSY (bit 2) stays. -/
theorem test_overrun :
    (next? (step { told [.cmd 0b00] with stat := { Stat.zero with coreBusy := true } })).map coreStatus =
      some 0x00002004 := by decide

/-- P1, command 2: completing not ready in Measuring reads 0x00000009. -/
theorem test_complete_status :
    (next? (step ({ State.reset with acq := .measuring, stat := { Stat.zero with coreBusy := true } }.atHost
        (some (.complete false))))).map coreStatus = some 0x00000009 := by decide

/-- P3's end state as a word. -/
theorem test_status_word :
    statusWord .idle { Stat.zero with respValid := true, respReady := true, accErr := 0b100, resExh := true, anyExh := true } =
      0x00001C18 := by decide

/-- 20_memory R72. -/
theorem test_misaligned_refused :
    refusal? (step { State.reset with cfg := { State.reset.cfg with addrDR := 0x9 } }) = some .misalignedAddress := by decide

/-! ### Witnesses: the hypotheses of each statement can be met together -/

theorem test_witness_DecodedBytesEncodeAgain :
    decode .port [0xF9#8, 0x8F#8, 0x00#8] = .ok (.wrAddr 0x47 .recv, [0x00#8]) := by rfl

theorem test_witness_PlacedFieldReadsBackAlone :
    distinctBits [1, 2, 3, 4, 5, 6, 7] = true ∧ distinctBits [31] = true ∧ (0 : Nat) ∉ [1, 2, 3, 4, 5, 6, 7] ∧
    (32 : Nat) ∉ [31] := by decide

theorem test_witness_StepRunsTheCommandEvent :
    configOk (told [.cmd 0b10]) ∧ (told [.cmd 0b10]).hostIn = .cmd 0b10 :: [] ∧
    decode .hcmd [(0b10#2).setWidth 8] = .ok (.pollEnd, []) := ⟨rfl, rfl, rfl⟩

/-- Its first clause: a wait that spins, and label S_D at `I` = 0 and at the absent `I` = 3. -/
theorem test_witness_StepRunsTheOperationAtThePosition :
    (∃ s : State, configOk s ∧ quietBoundary s s ∧ s.pos.trans = some .rW0 ∧ s.pos.leaf = some .waitIdle ∧
      TransLabel.isWait .rW0 = true) ∧
    (∃ s : State, configOk s ∧ quietBoundary s s ∧ s.pos.trans = some .sD ∧ s.pos.leaf = none ∧ s.scr.i = 0) ∧
    (∃ s : State, configOk s ∧ quietBoundary s s ∧ s.pos.trans = some .sD ∧ s.pos.leaf = none ∧ s.scr.i = 3) :=
  ⟨⟨(atTransport .rW0 [1]).atLeaf (some .waitIdle), rfl, .inl ⟨rfl, rfl⟩, rfl, rfl, rfl⟩,
    ⟨atTransport .sD [], rfl, .inl ⟨rfl, rfl⟩, rfl, rfl, rfl⟩,
    ⟨{ atTransport .sD [] with scr := { Scratch.zero with i := 3 } }, rfl, .inl ⟨rfl, rfl⟩, rfl, rfl, rfl⟩⟩

/-- Its second and third clauses, the second after a quiet move of the host. -/
theorem test_witness_StepRunsTheOperationAtThePosition_callers :
    (∃ s u : State, configOk s ∧ quietBoundary s u ∧ u.pos.trans = none ∧ u.pos.leaf = none ∧ u.pos.proto = some .tDEC ∧
      u.hostIn = [.rst]) ∧
    (∃ s : State, configOk s ∧ quietBoundary s s ∧ s.pos.trans = none ∧ s.pos.proto = none ∧ s.pos.host = some .wait ∧
      s.pos.leaf = some .waitDone) ∧
    (∃ s : State, configOk s ∧ quietBoundary s s ∧ s.pos.trans = none ∧ s.pos.proto = none ∧
      s.pos.host = some (.complete true) ∧ s.pos.leaf = none) :=
  ⟨⟨(told [.quiet, .rst]).atProto (some .tDEC), _, rfl, .inr ⟨[.rst], rfl, rfl⟩, rfl, rfl, rfl, rfl⟩,
    ⟨(State.reset.atHost (some .wait)).atLeaf (some .waitDone), rfl, .inl ⟨rfl, rfl⟩, rfl, rfl, rfl, rfl⟩,
    ⟨State.reset.atHost (some (.complete true)), rfl, .inl ⟨rfl, rfl⟩, rfl, rfl, rfl, rfl⟩⟩

theorem test_witness_StepRunsTheFetchedOperation :
    ∃ s : State, configOk s ∧ s.hostIn = [] ∧ s.pos = Pos.rest ∧ s.slot = some ⟨.seq, [0x2#8, 0x01#8]⟩ ∧
      decode .seq [0x2#8, 0x01#8] = .ok (.send1 0x01, []) :=
  ⟨{ State.reset with slot := some ⟨.seq, [0x2#8, 0x01#8]⟩ }, rfl, rfl, rfl, rfl, rfl⟩

theorem test_witness_IdleMachinePerformsNoEvent :
    configOk State.reset ∧ atRest State.reset ∧ State.reset.hostIn = [] ∧ (told [.quiet]).hostIn = .quiet :: [] ∧
    configOk (told [.quiet]) ∧ atRest (told [.quiet]) := ⟨rfl, ⟨rfl, rfl⟩, rfl, rfl, rfl, ⟨rfl, rfl⟩⟩

/-- One of each address parameter, at 1, 2 and 3 past a multiple of 4. -/
theorem test_witness_MisalignedAddressIsRefused :
    (0x00000001#32).toNat % 4 ≠ 0 ∧ (0x00000006#32).toNat % 4 ≠ 0 ∧ (0xFFFFFFFF#32).toNat % 4 ≠ 0 ∧
    (0xFFFFFFFC#32).toNat % 4 = 0 ∧
    ([{ State.reset.cfg with addrSA := 0x1 }, { State.reset.cfg with addrStatus := 0x6 },
      { State.reset.cfg with addrCtl := 0xFFFFFFFF }, { State.reset.cfg with addrDR := 0xA },
      { State.reset.cfg with pinAddr := 0x103 }].all
      (fun c => refusal? (step { State.reset with cfg := c }) == some .misalignedAddress)) = true := by decide

theorem test_witness_StepAddsAtMostOneEvent :
    ∃ t, step (atTransport .sE [0]) = .next t ∧ t.trace ≠ (atTransport .sE [0]).trace := ⟨_, rfl, by decide⟩

theorem test_witness_ResetEventAtAnyBoundary :
    ∃ s : State, configOk s ∧ s.hostIn = .rst :: [.quiet] ∧ s.pos.leaf = some .waitIdle ∧ s.stat.coreBusy = true :=
  ⟨{ told [.rst, .quiet] with
      pos := ⟨some .start, some .begin, some .bLL, some .sW0, some .waitIdle⟩
      stat := { Stat.zero with coreBusy := true } }, rfl, rfl, rfl, rfl⟩

/-- The boundaries of the two clauses: a word of the table, and its neighbours outside it. -/
theorem test_witness_WrCtlLaunchesABusCommandWord :
    dirBit Dir.send ++ 0b0111#4 ∈ [0x07#5, 0x03#5, 0x01#5, 0x05#5, 0x04#5, 0x1B#5, 0x15#5] ∧
    dirBit Dir.recv ++ 0b0101#4 ∈ [0x07#5, 0x03#5, 0x01#5, 0x05#5, 0x04#5, 0x1B#5, 0x15#5] ∧
    dirBit Dir.send ++ 0b0000#4 ∉ [0x07#5, 0x03#5, 0x01#5, 0x05#5, 0x04#5, 0x1B#5, 0x15#5] ∧
    dirBit Dir.recv ++ 0b0111#4 ∉ [0x07#5, 0x03#5, 0x01#5, 0x05#5, 0x04#5, 0x1B#5, 0x15#5] ∧
    dirBit State.reset.port.dir = dirBit Dir.send ∧ dirBit receiving.port.dir = dirBit Dir.recv := by decide

/-- Every command word in its own direction, and one in the other. -/
theorem test_witness_BusCommandWordsLaunch :
    [0x07#5, 0x03#5, 0x01#5, 0x05#5, 0x04#5].all (fun v => dirBit State.reset.port.dir == v.extractLsb' 4 1) = true ∧
    [0x1B#5, 0x15#5].all (fun v => dirBit receiving.port.dir == v.extractLsb' 4 1) = true ∧
    dirBit receiving.port.dir ≠ (0x05#5).extractLsb' 4 1 ∧ dirBit State.reset.port.dir ≠ (0x15#5).extractLsb' 4 1 := by
  decide

/-- One launch after another. -/
theorem test_witness_OnlyTheSevenBusCommandWords :
    ∃ s t : State, step s = .next t ∧
      (∀ e ∈ s.trace, ∀ v, e.bcw? = some v → v ∈ [0x07#5, 0x03#5, 0x01#5, 0x05#5, 0x04#5, 0x1B#5, 0x15#5]) ∧
      t.trace.filterMap Event.bcw? = [0x04#5, 0x03#5] :=
  ⟨{ atTransport .sAB [] with trace := [.launch 0x4 0x03 0x03#5 0x47 0x01] }, _, rfl,
    by intro e he v hv; simp at he; subst he; cases hv; decide, by decide⟩

theorem test_witness_OnlyTheOneSensorIsAddressed :
    (atTransport .rSA []).slot = none ∧
    ∃ t, step (atTransport .rSA []) = .next t ∧ t.trace = .write .addr 0x0 0x8F :: (atTransport .rSA []).trace :=
  ⟨rfl, _, rfl, rfl⟩

theorem busy_one : ¬ idleAnswer State.reset.cfg 0x01 := by unfold idleAnswer; decide

theorem busy_seven : ¬ idleAnswer State.reset.cfg 0x07 := by unfold idleAnswer; decide

theorem test_witness_WaitIdleEndsAtTheFirstIdleAnswer :
    configOk (atTransport .sW0 [0x01, 0x07, 0x06]) ∧ (atTransport .sW0 [0x01, 0x07, 0x06]).hostIn = [] ∧
    pick (atTransport .sW0 [0x01, 0x07, 0x06]) = .op .waitIdle (atTransport .sW0 [0x01, 0x07, 0x06]) ∧
    (atTransport .sW0 [0x01, 0x07, 0x06]).answers = [0x01, 0x07] ++ [0x06] ∧
    (∀ b ∈ [0x01#32, 0x07#32], ¬ idleAnswer State.reset.cfg b) ∧ idleAnswer State.reset.cfg 0x06 :=
  ⟨rfl, rfl, rfl, rfl, by simpa using ⟨busy_one, busy_seven⟩, rfl⟩

/-- A state for each of its two clauses. -/
theorem test_witness_BusyAnswersKeepTheWait :
    (∃ s : State, configOk s ∧ s.hostIn = [] ∧ pick s = .op .waitIdle s ∧ ¬ idleAnswer s.cfg (nextAnswer s)) ∧
    (∃ s : State, configOk s ∧ s.hostIn = [] ∧ pick s = .op .waitDone s ∧
      pinOf s.cfg.pinMask (nextAnswer s) = s.cfg.busyLevel) :=
  ⟨⟨atTransport .rW1 [0x01], rfl, rfl, rfl, busy_one⟩, ⟨(fed [1]).atHost (some .wait), rfl, rfl, rfl, by decide⟩⟩

theorem test_witness_Send1Completes :
    ∃ s : State, configOk s ∧ s.hostIn = [] ∧ s.pos.leaf = none ∧ s.pos.proto = none ∧
      s.answers = [0x01] ++ 0x00 :: ([0x01] ++ 0x00 :: 0x0A :: []) ∧
      (∀ w ∈ [0x01#32] ++ [0x01#32], ¬ idleAnswer s.cfg w) ∧ idleAnswer s.cfg 0x00 :=
  ⟨fed [0x01, 0x00, 0x01, 0x00, 0x0A], rfl, rfl, rfl, rfl, rfl,
    (by simpa using busy_one : ∀ w ∈ [0x01#32] ++ [0x01#32], ¬ idleAnswer State.reset.cfg w), rfl⟩

theorem test_witness_Send2Completes :
    ∃ s : State, configOk s ∧ s.hostIn = [] ∧ s.pos.leaf = none ∧ s.pos.proto = none ∧
      s.answers = [0, 0, 0, 0, 0x0A] ++ [] ∧ idleAnswer s.cfg 0 ∧ errorOf s.cfg 0 = 0 :=
  ⟨fed [0, 0, 0, 0, 0x0A], rfl, rfl, rfl, rfl, rfl, rfl, by decide⟩

theorem test_witness_Send3Completes :
    ∃ s : State, configOk s ∧ s.hostIn = [] ∧ s.pos.leaf = none ∧ s.pos.proto = none ∧
      s.answers = [0, 0, 0, 0, 0, 0, 0] ++ [] ∧ idleAnswer s.cfg 0 ∧ errorOf s.cfg 0 = 0 :=
  ⟨fed (zeros 7), fed_configOk _, rfl, rfl, rfl, rfl, rfl, by decide⟩

theorem test_witness_SendAbortsAfterTheFirstByte :
    ∃ s t u : State, configOk s ∧ s.hostIn = [] ∧ s.pos.leaf = none ∧ s.pos.proto = none ∧
      s.answers = [0, 0, 0x06] ++ [] ∧ idleAnswer s.cfg 0 ∧ errorOf s.cfg 0x06 ≠ 0 ∧
      exec (.send2 0x01 0xCA) s = .next t ∧ exec (.send3 0x01 0xCA 0x10) s = .next u :=
  ⟨fed [0, 0, 0x06], _, _, rfl, rfl, rfl, rfl, rfl, rfl, by decide, rfl, rfl⟩

theorem test_witness_SendAbortsAfterTheSecondByte :
    ∃ s t : State, configOk s ∧ s.hostIn = [] ∧ s.pos.leaf = none ∧ s.pos.proto = none ∧
      s.answers = [0, 0, 0, 0, 0x0A] ++ [] ∧ idleAnswer s.cfg 0 ∧ errorOf s.cfg 0 = 0 ∧ errorOf s.cfg 0x0A ≠ 0 ∧
      exec (.send3 0x01 0xCA 0x10) s = .next t :=
  ⟨fed [0, 0, 0, 0, 0x0A], _, rfl, rfl, rfl, rfl, rfl, rfl, by decide, by decide, rfl⟩

theorem idle_tries {a b : Attempt} {n : Nat} (h : b.idle State.reset.cfg) (ha : a ∈ List.replicate n b) :
    a.idle State.reset.cfg := by rwa [List.eq_of_mem_replicate ha]

theorem bad_tries {a : Attempt} {n : Nat} (ha : a ∈ List.replicate n badTry) :
    receiveRetries (errorOf State.reset.cfg a.we) = true := by
  rw [List.eq_of_mem_replicate ha]; decide

theorem good_idle : goodTry.idle State.reset.cfg := ⟨rfl, rfl, rfl⟩

theorem bad_idle : badTry.idle State.reset.cfg := ⟨rfl, rfl, rfl⟩

/-- Four bad attempts, the most there can be before a good one. -/
theorem test_witness_ReceiveReturnsTheFirstGoodAttempt :
    ∃ (s : State) (bad : List Attempt), configOk s ∧ s.hostIn = [] ∧ s.pos.leaf = none ∧ s.pos.proto = none ∧
      bad.length = 4 ∧ bad.length < 5 ∧ s.answers = attemptAnswers bad ++ goodTry.answers ++ [] ∧
      (∀ a ∈ bad, a.idle s.cfg) ∧ goodTry.idle s.cfg ∧
      (∀ a ∈ bad, (errorOf s.cfg a.we).getLsbD 0 = true ∨ (errorOf s.cfg a.we).getLsbD 2 = true) ∧
      (errorOf s.cfg goodTry.we).getLsbD 0 = false ∧ (errorOf s.cfg goodTry.we).getLsbD 2 = false :=
  ⟨fed (attemptAnswers (List.replicate 4 badTry) ++ goodTry.answers ++ []), List.replicate 4 badTry, fed_configOk _, rfl, rfl, rfl, rfl,
    by decide, rfl, fun _ h => idle_tries bad_idle h, good_idle,
    fun a h => by rw [List.eq_of_mem_replicate h]; decide, by decide, by decide⟩

/-- No bad attempt at all. -/
theorem test_witness_ReceiveReturnsTheFirstGoodAttempt_at_once :
    ∃ s : State, configOk s ∧ s.hostIn = [] ∧ s.pos.leaf = none ∧
      s.answers = attemptAnswers [] ++ goodTry.answers ++ [] ∧ goodTry.idle s.cfg :=
  ⟨fed (attemptAnswers [] ++ goodTry.answers ++ []), fed_configOk _, rfl, rfl, rfl, good_idle⟩

theorem test_witness_ReceiveExhaustsAfterFiveAttempts :
    ∃ (s : State) (bad : List Attempt), configOk s ∧ s.hostIn = [] ∧ s.pos.leaf = none ∧ s.pos.proto = none ∧
      bad.length = 4 ∧ s.answers = attemptAnswers bad ++ badTry.answers ++ [] ∧ (∀ a ∈ bad, a.idle s.cfg) ∧
      badTry.idle s.cfg ∧ (∀ a ∈ bad, receiveRetries (errorOf s.cfg a.we) = true) ∧
      receiveRetries (errorOf s.cfg badTry.we) = true :=
  ⟨fed (attemptAnswers (List.replicate 4 badTry) ++ badTry.answers ++ []), List.replicate 4 badTry, fed_configOk _, rfl, rfl, rfl, rfl,
    rfl, fun _ h => idle_tries bad_idle h, bad_idle, fun _ h => bad_tries h, by decide⟩

/-- `k` = 1, and no `k` at all. -/
theorem test_witness_RetryBoundCountsAttempts :
    (∃ s : State, configOk s ∧ s.hostIn = [] ∧ s.pos.leaf = none ∧ (List.replicate 5 goodTry).length = 5 ∧
      (∀ a ∈ List.replicate 5 goodTry, a.idle s.cfg) ∧ s.answers = attemptAnswers (List.replicate 5 goodTry) ++ []) ∧
    (∃ s : State, configOk s ∧ s.hostIn = [] ∧ s.pos.leaf = none ∧ (List.replicate 5 badTry).length = 5 ∧
      (∀ a ∈ List.replicate 5 badTry, a.idle s.cfg) ∧ s.answers = attemptAnswers (List.replicate 5 badTry) ++ []) :=
  ⟨⟨fed (attemptAnswers (List.replicate 5 goodTry) ++ []), fed_configOk _, rfl, rfl, rfl, fun _ h => idle_tries good_idle h, rfl⟩,
    ⟨fed (attemptAnswers (List.replicate 5 badTry) ++ []), fed_configOk _, rfl, rfl, rfl, fun _ h => idle_tries bad_idle h, rfl⟩⟩

theorem test_witness_AttemptCapturesTheBytesInOrder :
    ∃ s : State, configOk s ∧ s.hostIn = [] ∧ s.pos.leaf = none ∧ s.pos.trans = some .rW0 ∧
      s.answers = [0x01] ++ 0x00 :: ([] ++ 0x00 :: 0x1B :: ([0x01] ++ 0x00 :: 0x4E :: [])) ∧
      (∀ w ∈ [0x01#32] ++ [] ++ [0x01#32], ¬ idleAnswer s.cfg w) ∧ idleAnswer s.cfg 0x00 :=
  ⟨atTransport .rW0 [0x01, 0x00, 0x00, 0x1B, 0x01, 0x00, 0x4E], rfl, rfl, rfl, rfl, rfl,
    (by simpa using busy_one : ∀ w ∈ [0x01#32] ++ [] ++ [0x01#32], ¬ idleAnswer State.reset.cfg w), rfl⟩

theorem clean_zero : cleanAnswer State.reset.cfg 0 := ⟨rfl, by decide⟩

theorem clean_good : cleanAnswer State.reset.cfg goodTry.we := ⟨rfl, by decide⟩

/-- Answers of zeros are clean, however many lists of them. -/
theorem clean_zeros {n : Nat} {w : Word} (h : w ∈ zeros n) : cleanAnswer State.reset.cfg w := by
  rw [List.eq_of_mem_replicate h]; exact clean_zero

theorem zeros_append (a b : Nat) : zeros a ++ zeros b = zeros (a + b) := List.replicate_append_replicate

theorem test_witness_BeginConvCompletes :
    ∃ s : State, configOk s ∧ s.hostIn = [] ∧ s.pos.leaf = none ∧ s.pos.trans = none ∧ s.pos.host = none ∧
      (zeros 7).length = 7 ∧ (∀ w ∈ zeros 7 ++ zeros 7, cleanAnswer s.cfg w) ∧ goodTry.idle s.cfg ∧
      receiveRetries (errorOf s.cfg goodTry.we) = false ∧ s.answers = zeros 7 ++ zeros 7 ++ goodTry.answers ++ [] :=
  ⟨fed (zeros 7 ++ zeros 7 ++ goodTry.answers ++ []), fed_configOk _, rfl, rfl, rfl, rfl, rfl,
    fun _ h => clean_zeros (zeros_append 7 7 ▸ h), good_idle, by decide, rfl⟩

theorem test_witness_ReadResultCompletes :
    ∃ s : State, configOk s ∧ s.hostIn = [] ∧ s.pos.leaf = none ∧ s.pos.trans = none ∧ s.pos.host = none ∧
      (zeros 3).length = 3 ∧ (zeros 7).length = 7 ∧
      (∀ w ∈ zeros 3 ++ zeros 3 ++ zeros 7 ++ zeros 7, cleanAnswer s.cfg w) ∧ goodTry.idle s.cfg ∧
      cleanAnswer s.cfg goodTry.we ∧
      s.answers = zeros 3 ++ goodTry.answers ++ zeros 3 ++ goodTry.answers ++ zeros 7 ++ zeros 7 ++ [] :=
  ⟨fed (zeros 3 ++ goodTry.answers ++ zeros 3 ++ goodTry.answers ++ zeros 7 ++ zeros 7 ++ []), fed_configOk _, rfl, rfl, rfl, rfl, rfl,
    rfl, fun _ h => clean_zeros (n := 20) (by simpa only [zeros_append] using h), good_idle, clean_good, rfl⟩

theorem pin_zero_done : pinOf State.reset.cfg.pinMask 0 ≠ State.reset.cfg.busyLevel := by decide

theorem pin_busy (busy : List Word) (h : busy = [] ∨ busy = [1, 3]) :
    ∀ w ∈ busy, pinOf State.reset.cfg.pinMask w = State.reset.cfg.busyLevel := by
  intro w hw
  rcases h with rfl | rfl
  · cases hw
  · simp only [List.mem_cons, List.not_mem_nil, or_false] at hw
    rcases hw with rfl | rfl <;> decide

/-- START and POLL_END. -/
theorem test_witness_StartFromIdleBeginsAConversion :
    ∀ op : BitVec 2, op = 0b01#2 ∨ op = 0b10#2 → ∃ s : State, configOk s ∧ s.hostIn = [.cmd op] ∧ s.pos = Pos.rest ∧
      s.stat.coreBusy = false ∧ s.acq = .idle ∧
      (zeros 7).length = 7 ∧ (∀ w ∈ zeros 7 ++ zeros 7, cleanAnswer s.cfg w) ∧ goodTry.idle s.cfg ∧
      cleanAnswer s.cfg goodTry.we ∧ s.answers = zeros 7 ++ zeros 7 ++ goodTry.answers ++ [] :=
  fun op _ => ⟨{ told [.cmd op] with answers := zeros 7 ++ zeros 7 ++ goodTry.answers ++ [] }, reset_configOk, rfl, rfl, rfl,
    rfl, rfl, fun _ h => clean_zeros (zeros_append 7 7 ▸ h), good_idle, clean_good, rfl⟩

/-- Measuring with the pin done, and Ready. -/
theorem test_witness_PollEndDeliversTheReading :
    ∀ (a : Acq) (pin : List Word), (a = .measuring ∧ pin = [0]) ∨ (a = .ready ∧ pin = []) →
    ∃ s : State, configOk s ∧ s.hostIn = [.cmd 0b10#2] ∧ s.pos = Pos.rest ∧ s.stat.coreBusy = false ∧
      ((s.acq = .measuring ∧ ∃ p, pin = [p] ∧ pinOf s.cfg.pinMask p ≠ s.cfg.busyLevel) ∨ (s.acq = .ready ∧ pin = [])) ∧
      (zeros 3).length = 3 ∧ (zeros 7).length = 7 ∧
      (∀ w ∈ zeros 3 ++ zeros 3 ++ zeros 7 ++ zeros 7, cleanAnswer s.cfg w) ∧ goodTry.idle s.cfg ∧
      cleanAnswer s.cfg goodTry.we ∧
      s.answers = pin ++ (zeros 3 ++ goodTry.answers ++ zeros 3 ++ goodTry.answers ++ zeros 7 ++ zeros 7 ++ []) :=
  fun a pin h => ⟨{ told [.cmd 0b10#2] with
      acq := a
      answers := pin ++ (zeros 3 ++ goodTry.answers ++ zeros 3 ++ goodTry.answers ++ zeros 7 ++ zeros 7 ++ []) },
    reset_configOk, rfl, rfl, rfl,
    h.imp (fun h => ⟨h.1, 0, h.2, pin_zero_done⟩) (fun h => h), rfl, rfl, fun _ h => clean_zeros (n := 20) (by simpa only [zeros_append] using h), good_idle, clean_good, rfl⟩

/-- No busy sample, and two. -/
theorem test_witness_BlockingReadDeliversTheReading :
    ∀ busy : List Word, busy = [] ∨ busy = [1, 3] → ∃ s : State, configOk s ∧ s.hostIn = [.cmd 0b11#2] ∧ s.pos = Pos.rest ∧
      s.stat.coreBusy = false ∧ (zeros 7).length = 7 ∧ (zeros 3).length = 3 ∧
      (∀ w ∈ zeros 7 ++ zeros 7 ++ zeros 3 ++ zeros 3 ++ zeros 7 ++ zeros 7, cleanAnswer s.cfg w) ∧ goodTry.idle s.cfg ∧
      cleanAnswer s.cfg goodTry.we ∧ (∀ w ∈ busy, pinOf s.cfg.pinMask w = s.cfg.busyLevel) ∧
      pinOf s.cfg.pinMask 0 ≠ s.cfg.busyLevel ∧
      s.answers = zeros 7 ++ zeros 7 ++ goodTry.answers ++
        (busy ++ 0 :: (zeros 3 ++ goodTry.answers ++ zeros 3 ++ goodTry.answers ++ zeros 7 ++ zeros 7 ++ [])) :=
  fun busy h => ⟨{ told [.cmd 0b11#2] with
      answers := zeros 7 ++ zeros 7 ++ goodTry.answers ++
        (busy ++ 0 :: (zeros 3 ++ goodTry.answers ++ zeros 3 ++ goodTry.answers ++ zeros 7 ++ zeros 7 ++ [])) },
    reset_configOk, rfl, rfl, rfl, rfl, rfl, fun _ h => clean_zeros (n := 34) (by simpa only [zeros_append] using h),
    good_idle, clean_good, pin_busy busy h, pin_zero_done, rfl⟩

theorem test_witness_ProtocolOrderIgnoresErrors :
    ((State.reset.atProto (some .tR1)).atTrans (some .rE)).pos.proto = some .tR1 ∧
    (ProtoLabel.tR1, ProtoLabel.tLC) ∈ [(ProtoLabel.bLL, ProtoLabel.bCF), (ProtoLabel.bCF, ProtoLabel.bCLR),
      (ProtoLabel.tP0, ProtoLabel.tR0), (ProtoLabel.tR0, ProtoLabel.tDEC), (ProtoLabel.tP1, ProtoLabel.tR1),
      (ProtoLabel.tR1, ProtoLabel.tLC), (ProtoLabel.tLC, ProtoLabel.tLS)] := by decide

/-- One state for each of its three clauses. -/
theorem test_witness_ReadResultCapturesAndPublishes :
    (State.reset.atProto (some .tR0)).pos.proto = some .tR0 ∧ (State.reset.atProto (some .tR1)).pos.proto = some .tR1 ∧
    (State.reset.atProto (some .tLS)).pos.proto = some .tLS := by decide

/-- The reserved op code while busy and while not. -/
theorem test_witness_CommandsTurnedAwaySetOneBit :
    (∃ s : State, configOk s ∧ s.hostIn = .cmd 0b00#2 :: [] ∧ s.stat.coreBusy = false) ∧
    (∃ s : State, configOk s ∧ s.hostIn = .cmd 0b00#2 :: [] ∧ s.stat.coreBusy = true) :=
  ⟨⟨told [.cmd 0b00], rfl, rfl, rfl⟩,
    ⟨{ told [.cmd 0b00] with stat := { Stat.zero with coreBusy := true } }, rfl, rfl, rfl⟩⟩

theorem test_witness_CommandsAreAccepted : State.reset.stat.coreBusy = false := rfl

/-- Two busy samples and one that is done. -/
theorem test_witness_WaitDonePassSamplesThePin :
    ∃ s : State, configOk s ∧ s.hostIn = [] ∧ levelsFit s.pos ∧ pick s = .op .waitDone s ∧ s.pos.host = some .wait ∧
      s.answers = [1, 3] ++ [0] ∧ (∀ b ∈ [1, 3], pinOf s.cfg.pinMask b = s.cfg.busyLevel) ∧
      pinOf s.cfg.pinMask 0 ≠ s.cfg.busyLevel :=
  ⟨(fed [1, 3, 0]).atHost (some .wait), rfl, rfl, ⟨nofun, nofun, nofun⟩, rfl, rfl, rfl, pin_busy _ (.inr rfl),
    pin_zero_done⟩

/-- No busy sample. -/
theorem test_witness_WaitDonePassSamplesThePin_at_once :
    ∃ s : State, configOk s ∧ s.hostIn = [] ∧ levelsFit s.pos ∧ pick s = .op .waitDone s ∧ s.answers = [] ++ [0] ∧
      pinOf s.cfg.pinMask 0 ≠ s.cfg.busyLevel :=
  ⟨(fed [0]).atHost (some .wait), rfl, rfl, ⟨nofun, nofun, nofun⟩, rfl, rfl, by decide⟩

theorem test_witness_CompletionResponds :
    ∃ s : State, configOk s ∧ s.hostIn = [] ∧ s.pos.leaf = none ∧ s.pos.trans = none ∧ s.pos.proto = none ∧
      s.pos.host = some (.complete true) := ⟨State.reset.atHost (some (.complete true)), rfl, rfl, rfl, rfl, rfl, rfl⟩

theorem test_witness_StartWhileNotIdleDoesNothing :
    ∃ s : State, configOk s ∧ s.hostIn = [.cmd 0b01#2] ∧ s.pos = Pos.rest ∧ s.stat.coreBusy = false ∧ s.acq ≠ .idle :=
  ⟨{ told [.cmd 0b01#2] with acq := .measuring }, rfl, rfl, rfl, rfl, by decide⟩

theorem test_witness_PollEndWhileBusySamplesOnce :
    ∃ s : State, configOk s ∧ s.hostIn = [.cmd 0b10#2] ∧ s.pos = Pos.rest ∧ s.stat.coreBusy = false ∧ s.acq = .measuring ∧
      s.answers = 1 :: [] ∧ pinOf s.cfg.pinMask 1 = s.cfg.busyLevel :=
  ⟨{ told [.cmd 0b10#2] with acq := .measuring, answers := [1] }, rfl, rfl, rfl, rfl, rfl, rfl, by decide⟩

theorem test_witness_BusyBitFollowsTheCommand :
    busyMatches (told [.cmd 0b01]) ∧ ∃ t, step (told [.cmd 0b01]) = .next t ∧ t.stat.coreBusy = true :=
  ⟨⟨rfl, rfl⟩, _, rfl, rfl⟩

/-- A receive that exhausts at the result read, where RES_EXH and ANY_EXH both change. -/
theorem test_witness_StatusFieldsStayOrdered :
    ∃ s t : State, levelsFit s.pos ∧ flagsOrdered s.stat ∧ step s = .next t ∧ t.stat.resExh = true ∧ t.stat.anyExh = true :=
  ⟨{ (atTransport .rE [0x12]).atProto (some .tR0) with scr := { Scratch.zero with att := 5 } }, _,
    ⟨nofun, nofun, nofun⟩, ⟨nofun, nofun, by decide, nofun⟩, rfl, by decide, by decide⟩

theorem test_witness_ResultStaysTheDecodingOfRaw :
    ∃ s t : State, levelsFit s.pos ∧ readingMatches s ∧ step s = .next t ∧ t.raw = 0x1B4E :=
  ⟨{ (atTransport .sEF [0]).atProto (some .tLS) with scr := { Scratch.zero with rr := 0x1B4E, mag := 5788 } }, _,
    ⟨nofun, nofun, nofun⟩, ⟨by decide, fun _ _ _ => by decide⟩, rfl, by decide⟩

theorem test_witness_NoErrorStopsTheMachine :
    ∃ s : State, canGoOn s ∧ s.pos.trans = some .sD ∧ s.scr.i = 2 :=
  ⟨{ atTransport .sD [] with scr := { Scratch.zero with n := 3, i := 2 } },
    ⟨rfl, rfl, ⟨nofun, nofun, nofun⟩, fun l hl => by cases hl; exact ⟨by decide, rfl⟩⟩, rfl, rfl⟩

/-- One step for each way ACQ changes, and one that leaves it Ready. -/
theorem test_witness_AcquisitionStateTransitions :
    (∃ s t : State, step s = .next t ∧ s.slot = none ∧ s.acq = .idle ∧ t.acq = .measuring) ∧
    (∃ s t : State, step s = .next t ∧ s.slot = none ∧ s.acq = .ready ∧ t.acq = .ready) ∧
    (∃ s t : State, step s = .next t ∧ s.hostIn = .rst :: [] ∧ s.acq = .measuring ∧ t.acq = .idle) ∧
    (∃ s t : State, step s = .next t ∧ s.hostIn = .cmd 0b11#2 :: [] ∧ s.acq = .measuring ∧ t.acq = .idle) ∧
    (∃ s t : State, step s = .next t ∧ s.pos.host = some .read ∧ s.acq = .measuring ∧ t.acq = .idle) :=
  ⟨⟨{ (((atTransport .rE [0]).atProto (some .bCLR)).atHost (some .begin)) with acq := .idle }, _, rfl, rfl, rfl, rfl⟩,
    ⟨{ State.reset with acq := .ready }, _, rfl, rfl, rfl, rfl⟩,
    ⟨{ told [.rst] with acq := .measuring }, _, rfl, rfl, rfl, rfl⟩,
    ⟨{ told [.cmd 0b11#2] with acq := .measuring }, _, rfl, rfl, rfl, rfl⟩,
    ⟨{ (((atTransport .sEF [0]).atProto (some .tLS)).atHost (some .read)) with acq := .measuring }, _, rfl, rfl, rfl, rfl⟩⟩

theorem test_witness_StickyBitsStay :
    ∃ s t : State, step s = .next t ∧ (∀ rest, s.hostIn ≠ .rst :: rest) ∧ s.stat.cmdOverrun = true ∧
      s.stat.cmdIllegal = true :=
  ⟨{ told [.cmd 0b01] with stat := { Stat.zero with cmdOverrun := true, cmdIllegal := true } }, _, rfl, nofun, rfl, rfl⟩

theorem test_witness_ReadingChangesOnlyAtPublication :
    ∃ s t : State, step s = .next t ∧ (∀ rest, s.hostIn ≠ .rst :: rest) ∧ t.raw ≠ s.raw :=
  ⟨{ (atTransport .sEF [0]).atProto (some .tLS) with scr := { Scratch.zero with rr := 0x1B4E, mag := 5788 } }, _, rfl, nofun,
    by decide⟩

end Sys2Proof.Tests
end

section
/-! PROOFS. What a step can add to the event history, and the parameters it keeps (00_scope R16, 20_memory R81, R86). -/
namespace Sys2Proof.Machine

variable {s t : State}

/-- RST performs no interface event and keeps the parameters (70 R343). -/
theorem resetEvent_cfg_trace (s : State) : (resetEvent s).cfg = s.cfg ∧ (resetEvent s).trace = s.trace := ⟨rfl, rfl⟩

/-- The reserved op code performs no interface event: it only sets a sticky bit (43 R260). -/
theorem reservedCommand_cfg_trace (s : State) :
    (reservedCommand s).cfg = s.cfg ∧ (reservedCommand s).trace = s.trace := by
  unfold reservedCommand
  split <;> simp

/-- Picking an operation performs no event: it answers the state itself, or the state with its slot emptied. -/
theorem pick_op_cfg_trace {i : Instr} (h : pick s = .op i t) : t.cfg = s.cfg ∧ t.trace = s.trace := by
  obtain ⟨rfl, -⟩ | ⟨-, rfl, -⟩ | ⟨-, -, rfl, -⟩ | ⟨-, -, -, rfl, -⟩ | ⟨-, -, -, -, rfl, -⟩ := pick_op h
  all_goals exact ⟨rfl, rfl⟩

/-- The sequencer's own boundary, from the operation picked to the position carried on: the events are those of the
operation alone. -/
theorem pick_exec_afterOp_adds_at_most_one_event {i : Instr} {v w : State} (hp : pick s = .op i v)
    (he : exec i v = .next w) :
    (afterOp s.pos w).cfg = s.cfg ∧
    ((afterOp s.pos w).trace = s.trace ∨ ∃ e, (afterOp s.pos w).trace = e :: s.trace) := by
  obtain ⟨hpc, hpt⟩ := pick_op_cfg_trace hp
  obtain ⟨hec, -, -, -, -, het⟩ := exec_keeps he
  obtain ⟨hac, -, -, -, -, -, -, hat, -⟩ := afterOp_keeps s.pos w
  rw [hac, hat, hec, hpc, ← hpt]
  exact ⟨rfl, het⟩

/-- Settles O12: of the cases of a step, only an operation and a completion perform an event, and each performs one at most;
taking the host's move performs none. -/
theorem stepAddsAtMostOneEvent : Obligations.StepAddsAtMostOneEvent := by
  intro s t h
  obtain ⟨rest, -, rfl⟩ | ⟨op, rest, -, -, rfl⟩ | ⟨op, rest, i, -, -, he⟩ | ⟨u, hu, hseq⟩ := step_cases h
  · obtain ⟨hc, ht⟩ := resetEvent_cfg_trace (s.setHostIn rest)
    exact ⟨hc, .inl ht⟩
  · obtain ⟨hc, ht⟩ := reservedCommand_cfg_trace (s.setHostIn rest)
    exact ⟨hc, .inl ht⟩
  · obtain ⟨hc, -, -, -, -, ht⟩ := exec_keeps he
    exact ⟨hc, ht⟩
  · obtain ⟨hmc, hmt⟩ : u.cfg = s.cfg ∧ u.trace = s.trace := by
      obtain ⟨-, rfl⟩ | ⟨rest, -, rfl⟩ := hu
      all_goals exact ⟨rfl, rfl⟩
    rw [← hmc, ← hmt]
    obtain ⟨i, v, w, hp, he, rfl⟩ | ⟨r, -, rfl⟩ | ⟨-, rfl⟩ := hseq
    · exact pick_exec_afterOp_adds_at_most_one_event hp he
    · exact ⟨complete_cfg u r, .inr ⟨_, complete_trace u r⟩⟩
    · exact ⟨rfl, .inl rfl⟩

end Sys2Proof.Machine
end

section
/-! PROOFS. What a step of the sequencer can change once its operation is done, said once: the position's way back through the
calling levels (10_state R33, R34; 41_transport R188). The invariants of 10_state are read off it. -/
namespace Sys2Proof.Machine

variable {s t u v w : State}

/-- `ACQ` is where it was, or a host label at which it moves has ended: BEGIN_CONV, or READ_RESULT (43 R261 to R263). -/
def AcqCarried (s t : State) : Prop :=
  t.acq = s.acq ∨
  (t.acq = .measuring ∧ s.pos.host = some .begin ∧
    t.pos.host = some (if s.pos.curOp = some .blockingRead then .wait else .complete false)) ∨
  (t.acq = .idle ∧ s.pos.host = some .read ∧ t.pos.host = some (.complete true))

/-- RAW and RESULT are what they were, or T_PUB has published RR and MAG at the end of T_LS (42 R228). -/
def ReadingCarried (s t : State) : Prop :=
  (t.raw = s.raw ∧ t.result = s.result) ∨
  (s.pos.proto = some .tLS ∧ t.pos.proto = none ∧ t.raw = s.scr.rr ∧ t.result = s.scr.mag.setWidth 32)

/-- What carrying the position on from `s`, in which an operation has just ended, to `t` can change: no handshake or sticky
field; `ACQ` only where a host label ends; RAW and RESULT only by T_PUB; and a label past T_DEC is reached only from T_DEC or
from another such label, with RR and MAG as they were (42 R228). -/
structure CarriedOn (s t : State) : Prop where
  handshake : t.stat.coreBusy = s.stat.coreBusy ∧ t.stat.respValid = s.stat.respValid ∧
    t.stat.respReady = s.stat.respReady ∧ t.stat.cmdOverrun = s.stat.cmdOverrun ∧ t.stat.cmdIllegal = s.stat.cmdIllegal
  acq : AcqCarried s t
  reading : ReadingCarried s t
  decoded : ∀ l, t.pos.proto = some l → l.decoded = true →
    t.scr.rr = s.scr.rr ∧ t.scr.mag = s.scr.mag ∧ ∃ m, s.pos.proto = some m ∧ (m.decoded = true ∨ m = .tDEC)
  decoding : t.pos.proto = some .tDEC → t.pos.trans = none ∨ s.pos.proto = some .tDEC ∧ s.pos.trans ≠ none

theorem CarriedOn.refl (s : State) : CarriedOn s s where
  handshake := ⟨rfl, rfl, rfl, rfl, rfl⟩
  acq := .inl rfl
  reading := .inl ⟨rfl, rfl⟩
  decoded l hl hd := ⟨rfl, rfl, l, hl, .inl hd⟩
  decoding h := by
    cases ht : s.pos.trans with
    | none => exact .inl rfl
    | some l => exact .inr ⟨h, nofun⟩

/-! ### The host level -/

theorem acqCarried_advanceHost {l : HostLabel} (h : s.pos.host = some l) : AcqCarried s (advanceHost l s) := by
  cases l with
  | begin => exact .inr (.inl ⟨rfl, h, rfl⟩)
  | read => exact .inr (.inr ⟨rfl, h, rfl⟩)
  | pin => exact .inl rfl
  | wait => exact .inl rfl
  | complete r => exact .inl rfl

theorem carriedOn_advanceHost {l : HostLabel} (h : s.pos.host = some l) : CarriedOn s (advanceHost l s) := by
  obtain ⟨-, hscr, hstat, hraw, hres, -, -, -, -, -, -, -, -, -, hproto, htrans, -⟩ := advanceHost_keeps l s h
  have hr := CarriedOn.refl s
  exact {
    handshake := by rw [hstat]; exact hr.handshake
    acq := acqCarried_advanceHost h
    reading := .inl ⟨hraw, hres⟩
    decoded := by rw [hscr, hproto]; exact hr.decoded
    decoding := by rw [hproto, htrans]; exact hr.decoding }

/-! ### The protocol level -/

theorem returnToHost_proto (s : State) : (returnToHost s).pos.proto = s.pos.proto := by
  obtain ⟨-, -, -, -, -, -, -, -, -, -, -, -, -, -, hproto, -⟩ := returnToHost_keeps s
  exact hproto

theorem carriedOn_returnToHost (s : State) : CarriedOn s (returnToHost s) := by
  unfold returnToHost
  split
  · next hl => exact carriedOn_advanceHost hl
  · exact CarriedOn.refl s

/-- A label that another label follows only moves the label, and T_R0 and T_R1 capture what was received; after B_CLR and T_LS
the calling host command goes on, in a state with no protocol label. -/
theorem carriedOn_advanceProto {l : ProtoLabel} (h : s.pos.proto = some l) (ht : s.pos.trans = none) :
    CarriedOn s (advanceProto l s) := by
  cases l with
  | bCLR =>
    have hp : (advanceProto .bCLR s).pos.proto = none := returnToHost_proto (s.atProto none)
    have hr := carriedOn_returnToHost (s.atProto none)
    exact { hr with
      reading := .inl (hr.reading.resolve_right (by simp))
      decoded := by simp [hp]
      decoding := by simp [hp] }
  | tLS =>
    have hr := carriedOn_returnToHost ((publish s).atProto none)
    have hp : (advanceProto .tLS s).pos.proto = none := returnToHost_proto ((publish s).atProto none)
    exact { hr with
      reading := .inr ⟨h, hp, hr.reading.resolve_right (by simp)⟩
      decoded := by simp [hp]
      decoding := by simp [hp] }
  | _ => constructor <;> simp [advanceProto, ProtoLabel.decoded, AcqCarried, ReadingCarried, h, ht]

theorem carriedOn_returnToProto (ht : s.pos.trans = none) : CarriedOn s (returnToProto s) := by
  unfold returnToProto
  split
  · next hl => exact carriedOn_advanceProto hl ht
  · exact CarriedOn.refl s

/-! ### The transport level -/

/-- END_PRIMITIVE writes none of what `CarriedOn` speaks of; the return does the rest. -/
theorem carriedOn_endTransport (x : Bool) (s : State) : CarriedOn s (endTransport x s) := by
  have hr := carriedOn_returnToProto (s := (endPrimitive (s.setScr { s.scr with x := x })).atTrans none) rfl
  obtain ⟨-, -, -, -, -, -, -, -, -, -, htrans, -⟩ := endTransport_keeps x s
  exact { hr with decoding := fun _ => .inl htrans }

/-- All the end of the operation at a transport label can do: move to another label, or end the primitive. Either way the
registers RR and MAG stay. -/
theorem advanceTrans_cases (l : TransLabel) (s : State) :
    ∃ r : Scratch, r.rr = s.scr.rr ∧ r.mag = s.scr.mag ∧
      ((∃ m, advanceTrans l s = (s.setScr r).atTrans (some m)) ∨ ∃ x, advanceTrans l s = endTransport x (s.setScr r)) := by
  cases l with
  | sAB | sEF => exact ⟨s.scr, rfl, rfl, .inr ⟨false, rfl⟩⟩
  | sW1 => exact ⟨{ s.scr with i := 1 }, rfl, rfl, .inl ⟨_, rfl⟩⟩
  | sW => exact ⟨{ s.scr with i := s.scr.i + 1 }, rfl, rfl, .inl ⟨_, rfl⟩⟩
  | rB0 => exact ⟨{ s.scr with rb0 := s.rd }, rfl, rfl, .inl ⟨.rC1, rfl⟩⟩
  | rB1 => exact ⟨{ s.scr with rb1 := s.rd }, rfl, rfl, .inl ⟨.rE, rfl⟩⟩
  | rE =>
    simp only [advanceTrans, endAttempt]
    split
    · split
      · exact ⟨{ s.scr with rb0 := 0xFF, rb1 := 0xFF }, rfl, rfl, .inr ⟨true, rfl⟩⟩
      · exact ⟨{ s.scr with att := s.scr.att + 1 }, rfl, rfl, .inl ⟨.rW0, rfl⟩⟩
    · exact ⟨s.scr, rfl, rfl, .inr ⟨false, rfl⟩⟩
  | _ => exact ⟨s.scr, rfl, rfl, .inl ⟨_, rfl⟩⟩

theorem carriedOn_advanceTrans {l : TransLabel} (ht : s.pos.trans = some l) : CarriedOn s (advanceTrans l s) := by
  obtain ⟨r, hrr, hmag, ⟨m, h⟩ | ⟨x, h⟩⟩ := advanceTrans_cases l s
  · rw [h]
    have hr := CarriedOn.refl s
    exact {
      handshake := hr.handshake
      acq := hr.acq
      reading := hr.reading
      decoded := fun n hn hd => ⟨hrr, hmag, n, hn, .inl hd⟩
      decoding := fun hd => .inr ⟨hd, by simp [ht]⟩ }
  · rw [h]
    have hr := carriedOn_endTransport x (s.setScr r)
    exact {
      handshake := hr.handshake
      acq := hr.acq
      reading := by simpa [ReadingCarried, hrr, hmag] using hr.reading
      decoded := by simpa [hrr, hmag] using hr.decoded
      decoding := hr.decoding }

/-- The position carried on after an operation picked at `p`: if the levels of `p` are still held in `s`, the label that
performed has ended, or the operation spins or entered an inner level and nothing more happens. -/
theorem carriedOn_afterOp {p : Pos} (ht : ∀ l, p.trans = some l → s.pos.trans = some l)
    (hp : ∀ l, p.proto = some l → s.pos.proto = some l) (hh : ∀ l, p.host = some l → s.pos.host = some l) :
    CarriedOn s (afterOp p s) := by
  unfold afterOp
  split
  · exact CarriedOn.refl s
  · split
    · next l hl => exact carriedOn_advanceTrans (ht l hl)
    · split
      · exact CarriedOn.refl s
      · next hn =>
        split
        · next l hl => exact carriedOn_advanceProto (hp l hl) hn
        · split
          · exact CarriedOn.refl s
          · split
            · next l hl => exact carriedOn_advanceHost (hh l hl)
            · exact CarriedOn.refl s

/-- An operation picked where no level holds a label has nothing to carry on. -/
theorem afterOp_of_no_level {p : Pos} (ht : p.trans = none) (hp : p.proto = none) (hh : p.host = none) :
    afterOp p s = s := by
  unfold afterOp
  rw [ht, hp, hh]
  cases s.pos.leaf <;> cases s.pos.trans <;> cases s.pos.proto <;> rfl

/-! ### Operations -/

/-- A control write that answers is a launch, whichever of the eight operations asked for it. -/
theorem exec_launch {i : Instr} (hi : formatOf i = .bcw ∨ ∃ c, i = .wrCtl c) (h : exec i s = .next t) :
    ∃ c, t = launch c s := by
  cases i with
  | wrCtl c => exact ⟨c, (issueControl_eq_next h).2⟩
  | sendSingle | sendStart | sendCont | sendFinish | sendErrStop | recvStartAck | recvFinish =>
    exact ⟨_, (issueBcw_eq_next h).2.2⟩
  | _ => simp [formatOf] at hi

theorem beginStart_atHost (s : State) : ∃ l, beginStart s = s.atHost (some l) := by
  unfold beginStart
  split
  all_goals exact ⟨_, rfl⟩

theorem beginPollEnd_atHost (s : State) : ∃ l, beginPollEnd s = s.atHost (some l) := by
  unfold beginPollEnd
  split
  all_goals exact ⟨_, rfl⟩

/-- A host command is turned away while CORE is busy; otherwise it is accepted and stands at a host label, in the same `ACQ` but
for BLOCKING_READ, which forces Idle (43 R260 to R263). -/
theorem exec_command {i : Instr} (hi : formatOf i = .hcmd) (h : exec i s = .next t) :
    s.stat.coreBusy = true ∧ t = overrun s ∨
    s.stat.coreBusy = false ∧ ∃ op a l, t = ((accept op s).setAcq a).atHost (some l) ∧
      (a = s.acq ∨ i = .blockingRead ∧ a = .idle) := by
  cases i with
  | start =>
    obtain rfl := Host.Outcome.next.inj h
    split
    · next hb => exact .inl ⟨hb, rfl⟩
    · next hb =>
      obtain ⟨l, hl⟩ := beginStart_atHost (accept .start s)
      exact .inr ⟨by simpa using hb, .start, s.acq, l, hl, .inl rfl⟩
  | pollEnd =>
    obtain rfl := Host.Outcome.next.inj h
    split
    · next hb => exact .inl ⟨hb, rfl⟩
    · next hb =>
      obtain ⟨l, hl⟩ := beginPollEnd_atHost (accept .pollEnd s)
      exact .inr ⟨by simpa using hb, .pollEnd, s.acq, l, hl, .inl rfl⟩
  | blockingRead =>
    obtain rfl := Host.Outcome.next.inj h
    split
    · next hb => exact .inl ⟨hb, rfl⟩
    · next hb => exact .inr ⟨by simpa using hb, .blockingRead, .idle, .begin, rfl, .inr ⟨rfl, rfl⟩⟩
  | _ => simp [formatOf] at hi

theorem exec_keeps_of_format {i : Instr} (h : exec i s = .next t) (hi : formatOf i ≠ .hcmd) :
    t.pos.host = s.pos.host ∧ t.pos.curOp = s.pos.curOp ∧ t.stat = s.stat ∧ t.acq = s.acq :=
  exec_keeps_host h ⟨by rintro rfl; exact hi rfl, by rintro rfl; exact hi rfl, by rintro rfl; exact hi rfl⟩

/-- What an operation can do to the protocol level, to RR and MAG, and to the spin. -/
theorem exec_levels {i : Instr} (h : exec i s = .next t) :
    (t.pos.proto = s.pos.proto ∨
      (i = .beginConv ∨ i = .readResult) ∧ (t.pos.proto = some .bLL ∨ t.pos.proto = some .tP0)) ∧
    t.scr.rr = s.scr.rr ∧
    (t.scr.mag = s.scr.mag ∨ i = .decode ∧ t.scr.mag = magnitude s.scr.rr ∧ t.pos.trans = s.pos.trans) ∧
    (t.pos.leaf = s.pos.leaf ∧ i ≠ .waitIdle ∧ i ≠ .waitDone ∨ t.pos.trans = s.pos.trans ∧ t.pos.proto = s.pos.proto ∧
      (i = .waitIdle ∧ t.pos.leaf ≠ some .waitDone ∨ i = .waitDone ∧ t.pos.leaf ≠ some .waitIdle)) := by
  cases i with
  | wrCtl c => obtain ⟨_, rfl⟩ := exec_launch (.inr ⟨c, rfl⟩) h; simp
  | sendSingle | sendStart | sendCont | sendFinish | sendErrStop | recvStartAck | recvFinish =>
    obtain ⟨_, rfl⟩ := exec_launch (.inl rfl) h; simp
  | start | pollEnd | blockingRead =>
    obtain ⟨-, rfl⟩ | ⟨-, op, a, l, rfl, -⟩ := exec_command rfl h
    · simp
    · simp
  | _ => obtain rfl := Host.Outcome.next.inj h; simp [enterSend, loadSend1, loadSend2, loadSend3]

/-! ### The sequencer's operation -/

/-- The operations at the transport labels: WAIT_IDLE at the wait labels alone, ERR_SAMPLE, and those of the port (R182, R186). -/
theorem transPick_op {l : TransLabel} {i : Instr} (h : transPick l u = .op i v) :
    i = .waitIdle ∧ l.isWait = true ∨ i = .errSample ∨ formatOf i = .port ∨ formatOf i = .bcw := by
  cases l <;> simp only [transPick] at h
  case sD => cases hx : txAt u.scr u.scr.i <;> rw [hx] at h <;> cases h; simp [formatOf]
  all_goals (cases h; try split) <;> simp [formatOf, TransLabel.isWait]

/-- Where an operation the sequencer picks comes from: a label or a spin, and then it is no host command, DECODE stands at
T_DEC alone, and BEGIN_CONV and READ_RESULT at a host label; or the slot, when no level holds a label. -/
theorem pick_op_source {i : Instr} (h : pick u = .op i v) :
    v = u ∧ formatOf i ≠ .hcmd ∧ (i = .decode → u.pos.proto = some .tDEC) ∧
      (i = .beginConv ∨ i = .readResult → u.pos.proto = none) ∨
    v = u.setSlot none ∧ u.slot ≠ none ∧ u.pos.leaf = none ∧ u.pos.trans = none ∧ u.pos.proto = none ∧
      u.pos.host = none := by
  obtain ⟨rfl, ⟨-, rfl⟩ | ⟨-, rfl⟩⟩ | ⟨-, rfl, l, -, hl⟩ | ⟨-, -, rfl, l, hl, rfl⟩ | ⟨-, -, hp, rfl, l, -, hl⟩ |
    ⟨hf, ht, hp, hh, rfl, r, rest, hr, -⟩ := pick_op h
  · simp [formatOf]
  · simp [formatOf]
  · have hi : formatOf i ≠ .hcmd ∧ i ≠ .decode ∧ i ≠ .beginConv ∧ i ≠ .readResult := by
      obtain ⟨rfl, -⟩ | rfl | hi | hi := transPick_op hl
      · simp [formatOf]
      · simp [formatOf]
      all_goals refine ⟨by simp [hi], ?_, ?_, ?_⟩ <;> rintro rfl <;> cases hi
    simp [hi]
  · cases l <;> simp [protoOp, formatOf, hl]
  · cases l <;> cases hl <;> simp [formatOf, hp]
  · exact .inr ⟨rfl, by simp [hr], hf, ht, hp, hh⟩

theorem exec_picked_trans {i : Instr} (h : pick u = .op i v) (he : exec i v = .next w) :
    ∀ l, u.pos.trans = some l → w.pos.trans = some l := by
  obtain ⟨rfl, ⟨-, rfl⟩ | ⟨-, rfl⟩⟩ | ⟨-, rfl, l, -, hl⟩ | ⟨-, ht, -⟩ | ⟨-, ht, -⟩ | ⟨-, ht, -⟩ := pick_op h
  · obtain rfl := Host.Outcome.next.inj he; simp
  · obtain rfl := Host.Outcome.next.inj he; simp
  · obtain ⟨-, ht, -⟩ := exec_trans_keeps hl he
    simp [ht]
  all_goals simp [ht]

theorem exec_picked_proto {i : Instr} (h : pick u = .op i v) (he : exec i v = .next w) :
    w.pos.proto = u.pos.proto ∨ u.pos.proto = none ∧ (w.pos.proto = some .bLL ∨ w.pos.proto = some .tP0) := by
  obtain ⟨hp | ⟨hi, hp⟩, -⟩ := exec_levels he
  · obtain ⟨rfl, -⟩ | ⟨rfl, -⟩ := pick_op_source h
    all_goals exact .inl hp
  · obtain ⟨-, -, -, hn⟩ | ⟨-, -, -, -, hn, -⟩ := pick_op_source h
    · exact .inr ⟨hn hi, hp⟩
    · exact .inr ⟨hn, hp⟩

/-- With a level in progress, no operation the sequencer picks is a host command. -/
theorem exec_picked_host {i : Instr} (h : pick u = .op i v) (he : exec i v = .next w) :
    ∀ l, u.pos.host = some l → w.pos.host = some l := by
  obtain ⟨rfl, hi, -⟩ | ⟨-, -, -, -, -, hh⟩ := pick_op_source h
  · obtain ⟨hhost, -⟩ := exec_keeps_of_format he hi
    simp [hhost]
  · simp [hh]

/-- What the sequencer does with an operation it picked: the operation, and the position carried on from it. -/
theorem carriedOn_picked {i : Instr} (h : pick u = .op i v) (he : exec i v = .next w) : CarriedOn w (afterOp u.pos w) := by
  refine carriedOn_afterOp (exec_picked_trans h he) (fun l hl => ?_) (exec_picked_host h he)
  obtain hp | ⟨hn, -⟩ := exec_picked_proto h he
  · rw [hp, hl]
  · simp [hn] at hl

/-- After the operation, at a level or in the slot, the host level is held as before, or nothing is carried on. -/
theorem afterOp_picked_host {i : Instr} (h : pick u = .op i v) (he : exec i v = .next w) :
    u.pos.host.isSome = w.pos.host.isSome ∨ afterOp u.pos w = w := by
  obtain ⟨rfl, hi, -⟩ | ⟨-, -, -, ht, hp, hh⟩ := pick_op_source h
  · obtain ⟨hhost, -⟩ := exec_keeps_of_format he hi
    exact .inl (by rw [hhost])
  · exact .inr (afterOp_of_no_level ht hp hh)

/-! ### Steps -/

/-- The reserved op code only sets a sticky bit (43 R260). -/
theorem reservedCommand_keeps (s : State) :
    (reservedCommand s).acq = s.acq ∧ (reservedCommand s).pos = s.pos ∧ (reservedCommand s).raw = s.raw ∧
    (reservedCommand s).result = s.result ∧ (reservedCommand s).scr = s.scr := by
  unfold reservedCommand
  split
  all_goals exact ⟨rfl, rfl, rfl, rfl, rfl⟩

/-- An invariant holds after every step if taking a host's move, a reset, a command, an operation of the sequencer and a
completion keep it. -/
theorem step_keeps {Inv : State → Prop} (hmove : ∀ s rest, Inv s → Inv (s.setHostIn rest)) (hrst : ∀ s, Inv (resetEvent s))
    (hres : ∀ s, Inv s → Inv (reservedCommand s))
    (hcmd : ∀ s t i, Inv s → formatOf i = .hcmd → exec i s = .next t → Inv t)
    (hop : ∀ u v w i, Inv u → pick u = .op i v → exec i v = .next w → Inv (afterOp u.pos w))
    (hdone : ∀ u r, Inv u → pick u = .complete r → Inv (complete r u)) (hs : Inv s) (h : step s = .next t) : Inv t := by
  obtain ⟨rest, -, rfl⟩ | ⟨op, rest, -, -, rfl⟩ | ⟨op, rest, i, -, hi, he⟩ | ⟨u, hu, hseq⟩ := step_cases h
  · exact hrst _
  · exact hres _ (hmove s rest hs)
  · refine hcmd _ t i (hmove s rest hs) ?_ he
    obtain ⟨-, rfl⟩ | ⟨-, rfl⟩ | ⟨-, rfl⟩ := commandOp_cases hi
    all_goals rfl
  · have hi : Inv u := by
      obtain ⟨-, rfl⟩ | ⟨rest, -, rfl⟩ := hu
      · exact hs
      · exact hmove s rest hs
    obtain ⟨i, v, w, hp, he, rfl⟩ | ⟨r, hp, rfl⟩ | ⟨-, rfl⟩ := hseq
    · exact hop u v w i hi hp he
    · exact hdone u r hi hp
    · exact hi

end Sys2Proof.Machine
end

section
/-! PROOFS. CORE_BUSY follows the command in progress (10_state R33, R51). -/
namespace Sys2Proof.Machine

variable {s t u v w : State}

theorem busyMatches_reservedCommand (h : busyMatches s) : busyMatches (reservedCommand s) := by
  unfold reservedCommand
  split
  all_goals exact h

/-- An accepted command sets CORE_BUSY, CUR_OP and the host label together; no other operation touches them. -/
theorem busyMatches_exec {i : Instr} (hs : busyMatches s) (h : exec i s = .next t) : busyMatches t := by
  by_cases hi : formatOf i = .hcmd
  · obtain ⟨-, rfl⟩ | ⟨-, op, a, l, rfl, -⟩ := exec_command hi h
    · exact hs
    · exact ⟨rfl, rfl⟩
  · obtain ⟨hhost, hcur, hstat, -⟩ := exec_keeps_of_format h hi
    unfold busyMatches
    rw [hhost, hcur, hstat]
    exact hs

theorem busyMatches_afterOp {i : Instr} (hu : busyMatches u) (hp : pick u = .op i v) (he : exec i v = .next w) :
    busyMatches (afterOp u.pos w) := by
  have hw : busyMatches w := by
    obtain ⟨rfl, -⟩ | ⟨rfl, -⟩ := pick_op_source hp
    · exact busyMatches_exec hu he
    · exact busyMatches_exec (s := u.setSlot none) hu he
  obtain hh | hr := afterOp_picked_host hp he
  · obtain ⟨hbusy, -⟩ := (carriedOn_picked hp he).handshake
    obtain ⟨-, -, -, -, -, -, -, -, -, hcur, hhost⟩ := afterOp_keeps u.pos w
    unfold busyMatches
    rw [hbusy, hcur, hhost hh]
    exact hw
  · rw [hr]
    exact hw

/-- Settles O53: RST and COMPLETE clear CORE_BUSY, CUR_OP and the host label together, an accepted command sets them together,
and no other step touches one of them alone. -/
theorem busyBitFollowsTheCommand : Obligations.BusyBitFollowsTheCommand := fun _ _ =>
  step_keeps (fun _ _ hs => hs) (fun _ => ⟨rfl, rfl⟩) (fun _ => busyMatches_reservedCommand)
    (fun _ _ _ hs _ => busyMatches_exec hs) (fun _ _ _ _ => busyMatches_afterOp) (fun _ _ _ _ => ⟨rfl, rfl⟩)

end Sys2Proof.Machine
end

section
/-! PROOFS. The transitions of ACQ, and the sticky bits (10_state R36, R38, R50; 43_acquisition R266). -/
namespace Sys2Proof.Machine

variable {s t u v w : State}

/-- The sticky bits only go up. -/
def stickyKept (f g : Stat) : Prop :=
  (f.cmdOverrun = true → g.cmdOverrun = true) ∧ (f.cmdIllegal = true → g.cmdIllegal = true)

theorem stickyKept_exec {i : Instr} (h : exec i s = .next t) : stickyKept s.stat t.stat := by
  by_cases hi : formatOf i = .hcmd
  · obtain ⟨-, rfl⟩ | ⟨-, op, a, l, rfl, -⟩ := exec_command hi h
    · exact ⟨fun _ => rfl, id⟩
    · exact ⟨id, id⟩
  · obtain ⟨-, -, hstat, -⟩ := exec_keeps_of_format h hi
    rw [hstat]
    exact ⟨id, id⟩

theorem stickyKept_reservedCommand (s : State) : stickyKept s.stat (reservedCommand s).stat := by
  unfold reservedCommand
  split
  · exact ⟨fun _ => rfl, id⟩
  · exact ⟨id, fun _ => rfl⟩

theorem stickyKept_afterOp {i : Instr} (hp : pick u = .op i v) (he : exec i v = .next w) :
    stickyKept u.stat (afterOp u.pos w).stat := by
  obtain ⟨-, -, -, hover, hill⟩ := (carriedOn_picked hp he).handshake
  have hw : stickyKept u.stat w.stat := by
    obtain ⟨rfl, -⟩ | ⟨rfl, -⟩ := pick_op_source hp
    · exact stickyKept_exec he
    · exact stickyKept_exec (s := u.setSlot none) he
  unfold stickyKept
  rw [hover, hill]
  exact hw

/-- Settles O59: a command sets a sticky bit or leaves both, and neither acceptance, END_PRIMITIVE nor COMPLETE writes one. -/
theorem stickyBitsStay : Obligations.StickyBitsStay := by
  intro s t h hrst
  obtain ⟨rest, hin, -⟩ | ⟨op, rest, -, -, rfl⟩ | ⟨op, rest, i, -, -, he⟩ | ⟨u, hu, hseq⟩ := step_cases h
  · exact absurd hin (hrst rest)
  · exact stickyKept_reservedCommand (s.setHostIn rest)
  · exact stickyKept_exec (s := s.setHostIn rest) he
  · obtain hstat : u.stat = s.stat := by
      obtain ⟨-, rfl⟩ | ⟨rest, -, rfl⟩ := hu
      all_goals rfl
    rw [← hstat]
    obtain ⟨i, v, w, hp, he, rfl⟩ | ⟨r, -, rfl⟩ | ⟨-, rfl⟩ := hseq
    · exact stickyKept_afterOp hp he
    · exact ⟨id, id⟩
    · exact ⟨id, id⟩

/-- No operation moves `ACQ` to Ready (10_state R38); BLOCKING_READ is the only one that moves it. -/
theorem exec_acq {i : Instr} (h : exec i s = .next t) :
    t.acq = s.acq ∨ t.acq = .idle ∧ i = .blockingRead ∧ s.stat.coreBusy = false := by
  by_cases hi : formatOf i = .hcmd
  · obtain ⟨-, rfl⟩ | ⟨hb, op, a, l, rfl, rfl | ⟨hi, rfl⟩⟩ := exec_command hi h
    · exact .inl rfl
    · exact .inl rfl
    · exact .inr ⟨rfl, hi, hb⟩
  · obtain ⟨-, -, -, hacq⟩ := exec_keeps_of_format h hi
    exact .inl hacq

/-- With nothing in the slot, the operation picked leaves `ACQ`, and only the host label that ends moves it. -/
theorem acqCarried_afterOp {i : Instr} (hs : u.slot = none) (hp : pick u = .op i v) (he : exec i v = .next w) :
    AcqCarried u (afterOp u.pos w) := by
  obtain ⟨rfl, hi, -⟩ | ⟨-, hslot, -⟩ := pick_op_source hp
  · obtain ⟨hhost, hcur, -, hacq⟩ := exec_keeps_of_format he hi
    have hc := (carriedOn_picked hp he).acq
    unfold AcqCarried at hc
    rw [hhost, hcur, hacq] at hc
    exact hc
  · exact absurd hs hslot

theorem ready_of_afterOp {i : Instr} (hp : pick u = .op i v) (he : exec i v = .next w)
    (h : (afterOp u.pos w).acq = .ready) : u.acq = .ready := by
  have hv : v.acq = u.acq := by
    obtain ⟨rfl, -⟩ | ⟨rfl, -⟩ := pick_op_source hp
    all_goals rfl
  obtain hc | ⟨hc, -⟩ | ⟨hc, -⟩ := (carriedOn_picked hp he).acq
  · obtain hw | ⟨hw, -⟩ := exec_acq he
    · rw [← hv, ← hw, ← hc, h]
    · simp [hw, h] at hc
  · simp [h] at hc
  · simp [h] at hc

/-- The sequencer's own step, whatever it picks: `ACQ` never moves to Ready, and with nothing in the slot only the host label
that ends moves it. -/
theorem acqCarried_seq
    (h : (∃ i v w, pick u = .op i v ∧ exec i v = .next w ∧ t = afterOp u.pos w) ∨
      (∃ r, pick u = .complete r ∧ t = complete r u) ∨ (pick u = .idle ∧ t = u)) :
    (t.acq = .ready → u.acq = .ready) ∧ (u.slot = none → AcqCarried u t) := by
  obtain ⟨i, v, w, hp, he, rfl⟩ | ⟨r, -, rfl⟩ | ⟨-, rfl⟩ := h
  · exact ⟨ready_of_afterOp hp he, fun hs => acqCarried_afterOp hs hp he⟩
  · exact ⟨id, fun _ => .inl rfl⟩
  · exact ⟨id, fun _ => .inl rfl⟩

/-- Settles O58: RST gives Idle, an accepted BLOCKING_READ forces it, and of the labels the sequencer carries on from only
`begin` and `read` of a host command write `ACQ`; Ready is written by none. -/
theorem acquisitionStateTransitions : Obligations.AcquisitionStateTransitions := by
  intro s t h
  obtain ⟨rest, hin, rfl⟩ | ⟨op, rest, -, -, rfl⟩ | ⟨op, rest, i, hin, hi, he⟩ | ⟨u, hu, hseq⟩ := step_cases h
  · exact ⟨nofun, fun _ => .inr (.inl ⟨rfl, rest, hin⟩)⟩
  · obtain ⟨hacq, -⟩ := reservedCommand_keeps (s.setHostIn rest)
    exact ⟨fun hr => hacq ▸ hr, fun _ => .inl hacq⟩
  · obtain hacq | ⟨hacq, rfl, hb⟩ := exec_acq he
    · exact ⟨fun hr => hacq ▸ hr, fun _ => .inl hacq⟩
    · obtain ⟨-, hx⟩ | ⟨-, hx⟩ | ⟨rfl, -⟩ := commandOp_cases hi
      · cases hx
      · cases hx
      · exact ⟨fun hr => by simp [hacq] at hr, fun _ => .inr (.inr (.inl ⟨hacq, hb, rest, hin⟩))⟩
  · obtain ⟨hready, hcarried⟩ := acqCarried_seq hseq
    have hs : (t.acq = .ready → s.acq = .ready) ∧ (s.slot = none → AcqCarried s t) := by
      obtain ⟨-, rfl⟩ | ⟨rest, -, rfl⟩ := hu
      all_goals exact ⟨hready, hcarried⟩
    exact ⟨hs.1, fun hn => (hs.2 hn).imp_right fun hc => .inr (.inr hc)⟩

end Sys2Proof.Machine
end

section
/-! PROOFS. The reading: the levels of the position fit, RESULT is the decoding of RAW, and RAW and RESULT change only when a
reading is published (10_state R34, R43, R45; 42_sensor_protocol R228). -/
namespace Sys2Proof.Machine

variable {s t u v w : State}

/-! ### The levels of the position -/

theorem afterOp_of_spin {p : Pos} (h : s.pos.leaf ≠ none) : afterOp p s = s := by
  unfold afterOp
  split
  · rfl
  · contradiction

theorem afterOp_leaf (p : Pos) (h : s.pos.leaf = none) : (afterOp p s).pos.leaf = none := by
  unfold afterOp
  split
  · next hl => simp [hl] at h
  · split
    · simp [advanceTrans_keeps, h]
    · split
      · exact h
      · split
        · simp [advanceProto_keeps, h]
        · split
          · exact h
          · split
            · next l _ => cases l <;> simp [advanceHost, h]
            · exact h

/-- Where WAIT_IDLE runs in a position whose levels fit: at a wait label, or under no transport or protocol label. -/
theorem labels_of_pick_waitIdle (hu : levelsFit u.pos) (hp : pick u = .op .waitIdle v) :
    (∃ l, u.pos.trans = some l ∧ l.isWait = true) ∨ u.pos.trans = none ∧ u.pos.proto = none := by
  obtain ⟨-, ⟨hf, -⟩ | ⟨-, hx⟩⟩ | ⟨-, -, l, ht, hl⟩ | ⟨-, -, -, l, -, hx⟩ | ⟨-, ht, hp, -⟩ | ⟨-, ht, hp, -⟩ :=
    pick_op hp
  · have hfit := hu.1 hf
    cases ht : u.pos.trans with
    | none => exact .inr ⟨rfl, by simpa [ht] using hfit⟩
    | some l => exact .inl ⟨l, rfl, by simpa [ht] using hfit⟩
  · cases hx
  · obtain ⟨-, hw⟩ | hx | hx | hx := transPick_op hl
    · exact .inl ⟨l, ht, hw⟩
    all_goals cases hx
  · cases l <;> cases hx
  · exact .inr ⟨ht, hp⟩
  · exact .inr ⟨ht, hp⟩

/-- Where WAIT_DONE runs in a position whose levels fit: under no transport or protocol label. -/
theorem labels_of_pick_waitDone (hu : levelsFit u.pos) (hp : pick u = .op .waitDone v) :
    u.pos.trans = none ∧ u.pos.proto = none := by
  obtain ⟨-, ⟨-, hx⟩ | ⟨hf, -⟩⟩ | ⟨-, -, l, -, hl⟩ | ⟨-, -, -, l, -, hx⟩ | ⟨-, ht, hp, -⟩ | ⟨-, ht, hp, -⟩ :=
    pick_op hp
  · cases hx
  · exact hu.2.1 hf
  · obtain ⟨hx, -⟩ | hx | hx | hx := transPick_op hl
    all_goals cases hx
  · cases l <;> cases hx
  · exact ⟨ht, hp⟩
  · exact ⟨ht, hp⟩

/-- At T_DEC, where no primitive and no spin runs, the operation is DECODE. -/
theorem pick_at_tDEC (hu : levelsFit u.pos) (hd : u.pos.proto = some .tDEC) : pick u = .op .decode u := by
  obtain ⟨hidle, hdone, hdec⟩ := hu
  have ht := hdec hd
  have hf : u.pos.leaf = none := by
    cases hl : u.pos.leaf with
    | none => rfl
    | some x =>
      cases x with
      | waitIdle => simpa [ht, hd] using hidle hl
      | waitDone => simpa [hd] using hdone hl
  simp [pick, hf, ht, hd, protoOp]

/-- A spin goes on under the labels it stands in, whose levels fit it. -/
theorem levelsFit_of_spin {i : Instr} (hu : levelsFit u.pos) (hp : pick u = .op i v) (he : exec i v = .next w)
    (hw : w.pos.leaf ≠ none) : levelsFit w.pos := by
  have hv : v.pos = u.pos := by
    obtain ⟨rfl, -⟩ | ⟨rfl, -⟩ := pick_op_source hp
    all_goals rfl
  obtain ⟨-, -, -, ⟨hl, h1, h2⟩ | ⟨ht, hpr, ⟨rfl, hl⟩ | ⟨rfl, hl⟩⟩⟩ := exec_levels he
  · rw [hv] at hl
    obtain ⟨-, ⟨-, rfl⟩ | ⟨-, rfl⟩⟩ | ⟨hf, -⟩ | ⟨hf, -⟩ | ⟨hf, -⟩ | ⟨hf, -⟩ := pick_op hp
    · exact absurd rfl h1
    · exact absurd rfl h2
    all_goals exact absurd (hl.trans hf) hw
  · unfold levelsFit
    rw [ht, hpr, hv]
    refine ⟨fun _ => ?_, fun h => absurd h hl, hu.2.2⟩
    obtain ⟨l, hl, hwait⟩ | ⟨hn, hn'⟩ := labels_of_pick_waitIdle hu hp
    · simpa [hl] using hwait
    · simpa [hn] using hn'
  · unfold levelsFit
    rw [ht, hpr, hv]
    exact ⟨fun h => absurd h hl, fun _ => labels_of_pick_waitDone hu hp, hu.2.2⟩

/-- No step of the sequencer runs a primitive inside T_DEC. -/
theorem levelsFit_afterOp {i : Instr} (hu : levelsFit u.pos) (hp : pick u = .op i v) (he : exec i v = .next w) :
    levelsFit (afterOp u.pos w).pos := by
  by_cases hw : w.pos.leaf = none
  · have hf := afterOp_leaf u.pos hw
    refine ⟨by simp [hf], by simp [hf], fun hd => ?_⟩
    obtain ht | ⟨hwd, hwt⟩ := (carriedOn_picked hp he).decoding hd
    · exact ht
    · obtain hpu | ⟨-, hx⟩ := exec_picked_proto hp he
      · have hud : u.pos.proto = some .tDEC := hpu ▸ hwd
        obtain ⟨rfl, rfl⟩ : Instr.decode = i ∧ u = v := by simpa [pick_at_tDEC hu hud] using hp
        obtain rfl := Host.Outcome.next.inj he
        exact absurd (hu.2.2 hud) hwt
      · simp [hwd] at hx
  · rw [afterOp_of_spin hw]
    exact levelsFit_of_spin hu hp he hw

/-! ### The reading -/

theorem readingMatches_resetEvent (s : State) : readingMatches (resetEvent s) :=
  ⟨(by decide : (0 : Word) = (magnitude 0).setWidth 32), nofun⟩

theorem readingMatches_command {i : Instr} (hs : readingMatches s) (hi : formatOf i = .hcmd) (h : exec i s = .next t) :
    readingMatches t := by
  obtain ⟨-, rfl⟩ | ⟨-, op, a, l, rfl, -⟩ := exec_command hi h
  · exact hs
  · exact hs

/-- Once the operation at a label that has decoded, or DECODE itself, is done, MAG is the decoding of RR. -/
theorem mag_after_picked {i : Instr} {m : ProtoLabel} (hfit : levelsFit u.pos) (hu : readingMatches u)
    (hp : pick u = .op i v) (he : exec i v = .next w) (hm : w.pos.proto = some m) (hd : m.decoded = true ∨ m = .tDEC) :
    w.scr.mag = magnitude w.scr.rr := by
  obtain ⟨-, hrr, hmag, -⟩ := exec_levels he
  obtain hpu | ⟨-, hx | hx⟩ := exec_picked_proto hp he
  · rw [hpu] at hm
    obtain ⟨rfl, -, hdec, -⟩ | ⟨-, -, -, -, hn, -⟩ := pick_op_source hp
    · obtain hd | rfl := hd
      · obtain hmag | ⟨hi, -⟩ := hmag
        · rw [hmag, hrr, hu.2 m hm hd]
        · obtain rfl : m = .tDEC := by simpa [hm] using hdec hi
          cases hd
      · obtain rfl : Instr.decode = i := by simpa [pick_at_tDEC hfit hm] using hp
        obtain rfl := Host.Outcome.next.inj he
        rfl
    · simp [hn] at hm
  · obtain rfl : m = .bLL := by simpa [hm] using hx
    simp [ProtoLabel.decoded] at hd
  · obtain rfl : m = .tP0 := by simpa [hm] using hx
    simp [ProtoLabel.decoded] at hd

theorem readingMatches_afterOp {i : Instr} (hfit : levelsFit u.pos) (hu : readingMatches u) (hp : pick u = .op i v)
    (he : exec i v = .next w) : readingMatches (afterOp u.pos w) := by
  have hc := carriedOn_picked hp he
  refine ⟨?_, fun l hl hd => ?_⟩
  · obtain ⟨hraw, hres⟩ | ⟨hls, -, hraw, hres⟩ := hc.reading
    · obtain ⟨-, hraw', hres', -⟩ := exec_keeps he
      have hv : v.raw = u.raw ∧ v.result = u.result := by
        obtain ⟨rfl, -⟩ | ⟨rfl, -⟩ := pick_op_source hp
        all_goals exact ⟨rfl, rfl⟩
      rw [hraw, hres, hraw', hres', hv.1, hv.2, hu.1]
    · rw [hraw, hres, mag_after_picked hfit hu hp he hls (.inl rfl)]
  · obtain ⟨hrr, hmag, m, hm, hdm⟩ := hc.decoded l hl hd
    rw [hrr, hmag, mag_after_picked hfit hu hp he hm hdm]

theorem levelsFit_command {i : Instr} (hs : levelsFit s.pos) (hi : formatOf i = .hcmd) (h : exec i s = .next t) :
    levelsFit t.pos := by
  obtain ⟨-, rfl⟩ | ⟨-, op, a, l, rfl, -⟩ := exec_command hi h
  · exact hs
  · exact hs

theorem levelsFit_rest : levelsFit Pos.rest := ⟨nofun, nofun, nofun⟩

/-- Settles O55: RST gives 0 for both, and T_PUB publishes RR with its decoding, which DECODE left in MAG and no operation
between T_DEC and T_PUB changes. That DECODE alone runs at T_DEC needs the levels of the position to fit. -/
theorem resultStaysTheDecodingOfRaw : Obligations.ResultStaysTheDecodingOfRaw := fun s t hfit hread =>
  step_keeps (Inv := fun s => levelsFit s.pos ∧ readingMatches s) (fun _ _ hs => hs)
    (fun s => ⟨levelsFit_rest, readingMatches_resetEvent s⟩)
    (fun s hs => by
      obtain ⟨-, hpos, hraw, hres, hscr⟩ := reservedCommand_keeps s
      unfold readingMatches
      rw [hpos, hraw, hres, hscr]
      exact hs)
    (fun _ _ _ ⟨hf, hr⟩ hi he => ⟨levelsFit_command hf hi he, readingMatches_command hr hi he⟩)
    (fun _ _ _ _ ⟨hf, hr⟩ hp he => ⟨levelsFit_afterOp hf hp he, readingMatches_afterOp hf hr hp he⟩)
    (fun _ _ hs _ => hs) ⟨hfit, hread⟩

/-- What the sequencer publishes is RR and MAG as they stood before the step: the operation at T_LS writes neither. -/
theorem readingCarried_afterOp {i : Instr} (hp : pick u = .op i v) (he : exec i v = .next w) :
    ReadingCarried u (afterOp u.pos w) := by
  have hv : v.raw = u.raw ∧ v.result = u.result ∧ v.scr = u.scr := by
    obtain ⟨rfl, -⟩ | ⟨rfl, -⟩ := pick_op_source hp
    all_goals exact ⟨rfl, rfl, rfl⟩
  obtain ⟨hvraw, hvres, hvscr⟩ := hv
  obtain ⟨-, hwraw, hwres, -⟩ := exec_keeps he
  obtain ⟨hraw, hres⟩ | ⟨hls, hnone, hraw, hres⟩ := (carriedOn_picked hp he).reading
  · exact .inl ⟨by rw [hraw, hwraw, hvraw], by rw [hres, hwres, hvres]⟩
  · have hu : u.pos.proto = some .tLS := by
      obtain hpu | ⟨-, hx | hx⟩ := exec_picked_proto hp he
      · exact hpu ▸ hls
      · simp [hls] at hx
      · simp [hls] at hx
    obtain ⟨-, hrr, hmag | ⟨hi, -⟩, -⟩ := exec_levels he
    · exact .inr ⟨hu, hnone, by rw [hraw, hrr, hvscr], by rw [hres, hmag, hvscr]⟩
    · obtain ⟨-, -, hdec, -⟩ | ⟨-, -, -, -, hn, -⟩ := pick_op_source hp
      · simp [hu] at hdec
        exact absurd hi hdec
      · simp [hu] at hn

/-- Settles O60: of the steps other than RST only T_PUB, in the step that ends T_LS, writes RAW and RESULT. -/
theorem readingChangesOnlyAtPublication : Obligations.ReadingChangesOnlyAtPublication := by
  intro s t h hrst hchange
  obtain ⟨rest, hin, -⟩ | ⟨op, rest, -, -, rfl⟩ | ⟨op, rest, i, -, -, he⟩ | ⟨u, hu, hseq⟩ := step_cases h
  · exact absurd hin (hrst rest)
  · obtain ⟨-, -, hraw, hres, -⟩ := reservedCommand_keeps (s.setHostIn rest)
    simp [hraw, hres] at hchange
  · obtain ⟨-, hraw, hres, -⟩ := exec_keeps he
    simp [hraw, hres] at hchange
  · have hseq : ReadingCarried u t := by
      obtain ⟨i, v, w, hp, he, rfl⟩ | ⟨r, -, rfl⟩ | ⟨-, rfl⟩ := hseq
      · exact readingCarried_afterOp hp he
      · exact .inl ⟨rfl, rfl⟩
      · exact .inl ⟨rfl, rfl⟩
    have hs : ReadingCarried s t := by
      obtain ⟨-, rfl⟩ | ⟨rest, -, rfl⟩ := hu
      all_goals exact hseq
    exact hs.resolve_left fun ⟨hraw, hres⟩ => by simp [hraw, hres] at hchange

end Sys2Proof.Machine
end

section
/-! PROOFS. The order among the fields of CORE_STATUS, and where the host reads them (10_state R46 to R51). -/
namespace Sys2Proof.Machine

variable {s t u v w : State}

/-- The end of a primitive sets RES_EXH only with ANY_EXH, by the same `X` (41_transport R188; 42_sensor_protocol R228). -/
theorem endTransport_resExh (x : Bool) (s : State) :
    (endTransport x s).stat.resExh = s.stat.resExh ∨ (endTransport x s).stat.resExh = (s.stat.resExh || x) := by
  unfold endTransport returnToProto
  cases h : s.pos.proto with
  | none => simp [h, endPrimitiveFlags]
  | some l => cases l <;> simp [h, endPrimitiveFlags, advanceProto, returnToHost_keeps]

theorem flagsOrdered_endTransport (x : Bool) (h : flagsOrdered s.stat) : flagsOrdered (endTransport x s).stat := by
  obtain ⟨hready, hvalid, -, hexh⟩ := h
  obtain ⟨hb, hv, hr, -, -⟩ := (carriedOn_endTransport x s).handshake
  obtain ⟨-, -, -, -, -, hlast, hacc, hany⟩ := endTransport_reports x s
  unfold flagsOrdered
  rw [hb, hv, hr, hlast, hacc, hany]
  refine ⟨hready, hvalid, ?_, fun hx => ?_⟩
  · ext k hk
    cases he : s.scr.e[k] <;> simp [he]
  · obtain h | h := endTransport_resExh x s
    · simp [hexh (h ▸ hx)]
    · rw [h, Bool.or_eq_true] at hx
      obtain hx | hx := hx
      · simp [hexh hx]
      · simp [hx]

theorem flagsOrdered_advanceTrans (l : TransLabel) (h : flagsOrdered s.stat) : flagsOrdered (advanceTrans l s).stat := by
  obtain ⟨r, -, -, ⟨m, he⟩ | ⟨x, he⟩⟩ := advanceTrans_cases l s
  · rw [he]
    exact h
  · rw [he]
    exact flagsOrdered_endTransport x h

/-- A protocol operation that enters no primitive is DECODE: no other label ends in the step of its own operation. -/
theorem tDEC_of_no_call {i : Instr} {l : ProtoLabel} (hu : levelsFit u.pos) (hp : pick u = .op i v) (he : exec i v = .next w)
    (hl : u.pos.proto = some l) (ht : u.pos.trans = none) (hw : w.pos.trans = none) : l = .tDEC := by
  obtain ⟨rfl, ⟨hf, rfl⟩ | ⟨hf, rfl⟩⟩ | ⟨-, -, m, hm, -⟩ | ⟨-, -, rfl, m, hm, rfl⟩ | ⟨-, -, hn, -⟩ | ⟨-, -, hn, -⟩ :=
    pick_op hp
  · obtain ⟨m, hm, -⟩ | ⟨-, hn⟩ := labels_of_pick_waitIdle hu hp
    · simp [ht] at hm
    · simp [hl] at hn
  · obtain ⟨-, hn⟩ := labels_of_pick_waitDone hu hp
    simp [hl] at hn
  · simp [ht] at hm
  · obtain rfl : l = m := by simpa [hl] using hm
    cases l
    case tDEC => rfl
    all_goals (obtain rfl := Host.Outcome.next.inj he; simp [enterSend] at hw)
  · simp [hl] at hn
  · simp [hl] at hn

theorem flagsOrdered_exec {i : Instr} (hs : flagsOrdered s.stat) (h : exec i s = .next t) : flagsOrdered t.stat := by
  by_cases hi : formatOf i = .hcmd
  · obtain ⟨-, rfl⟩ | ⟨-, op, a, l, rfl, -⟩ := exec_command hi h
    · exact hs
    · exact ⟨nofun, nofun, BitVec.and_self, nofun⟩
  · obtain ⟨-, -, hstat, -⟩ := exec_keeps_of_format h hi
    rw [hstat]
    exact hs

/-- Of the labels that end, those of the transport level report, and T_DEC and the host labels write no field. -/
theorem flagsOrdered_afterOp {i : Instr} (hfit : levelsFit u.pos) (hu : flagsOrdered u.stat) (hp : pick u = .op i v)
    (he : exec i v = .next w) : flagsOrdered (afterOp u.pos w).stat := by
  have hw : flagsOrdered w.stat := by
    obtain ⟨rfl, -⟩ | ⟨rfl, -⟩ := pick_op_source hp
    · exact flagsOrdered_exec hu he
    · exact flagsOrdered_exec (s := u.setSlot none) hu he
  unfold afterOp
  split
  · exact hw
  · split
    · exact flagsOrdered_advanceTrans _ hw
    · next ht =>
      split
      · exact hw
      · next hwt =>
        split
        · next l hl =>
          obtain rfl := tDEC_of_no_call hfit hp he hl ht hwt
          exact hw
        · split
          · exact hw
          · split
            · next l hl =>
              obtain ⟨-, -, hstat, -⟩ := advanceHost_keeps l w (exec_picked_host hp he l hl)
              rw [hstat]
              exact hw
            · exact hw

theorem flagsOrdered_reservedCommand (h : flagsOrdered s.stat) : flagsOrdered (reservedCommand s).stat := by
  unfold reservedCommand
  split
  all_goals exact h

/-- Settles O54: RST and acceptance clear the fields, COMPLETE sets the handshake bits as it ends the command, and the end of a
primitive ors `E` into ACC_ERR with LAST_ERR, and `X` into ANY_EXH with RES_EXH. -/
theorem statusFieldsStayOrdered : Obligations.StatusFieldsStayOrdered := fun _ _ hfit hflags h =>
  (step_keeps (Inv := fun s => levelsFit s.pos ∧ flagsOrdered s.stat) (fun _ _ hs => hs)
    (fun _ => ⟨levelsFit_rest, nofun, nofun, BitVec.and_self, nofun⟩)
    (fun s ⟨hf, hs⟩ => ⟨(reservedCommand_keeps s).2.1 ▸ hf, flagsOrdered_reservedCommand hs⟩)
    (fun _ _ _ ⟨hf, hs⟩ hi he => ⟨levelsFit_command hf hi he, flagsOrdered_exec hs he⟩)
    (fun _ _ _ _ ⟨hf, hs⟩ hp he => ⟨levelsFit_afterOp hf hp he, flagsOrdered_afterOp hf hs hp he⟩)
    (fun _ _ ⟨hf, _, _, herr, hexh⟩ _ => ⟨hf, fun _ => rfl, fun _ => rfl, herr, hexh⟩) ⟨hfit, hflags⟩ h).2

/-- The fields of one bit, each at its place in the concatenation (R46). -/
theorem statusWord_bits (a : Acq) (f : Stat) :
    (statusWord a f).getLsbD 2 = f.coreBusy ∧ (statusWord a f).getLsbD 3 = f.respValid ∧
    (statusWord a f).getLsbD 4 = f.respReady ∧ (statusWord a f).getLsbD 11 = f.resExh ∧
    (statusWord a f).getLsbD 12 = f.anyExh ∧ (statusWord a f).getLsbD 13 = f.cmdOverrun ∧
    (statusWord a f).getLsbD 14 = f.cmdIllegal := by
  unfold statusWord
  refine ⟨?_, ?_, ?_, ?_, ?_, ?_, ?_⟩
  all_goals
    rw [BitVec.getLsbD_append]
    simp only [BitVec.getLsbD_append]
    simp

/-- The wider fields, and the bits above them. -/
theorem statusWord_fields (a : Acq) (f : Stat) :
    (statusWord a f).extractLsb' 0 2 = acqBits a ∧ (statusWord a f).extractLsb' 5 3 = f.lastErr ∧
    (statusWord a f).extractLsb' 8 3 = f.accErr ∧ (statusWord a f).extractLsb' 15 17 = 0#17 := by
  unfold statusWord
  refine ⟨?_, ?_, ?_, ?_⟩
  · exact BitVec.extractLsb'_append_eq_right
  all_goals simp (disch := decide) only [BitVec.extractLsb'_append_eq_of_le, BitVec.extractLsb'_append_eq_of_add_le,
    Nat.reduceSub, BitVec.extractLsb'_eq_self]

/-- Settles O6: each field is read back out of the concatenation that builds the word, and `ACQ` with its encoding (R36). -/
theorem coreStatusFields : Obligations.CoreStatusFields := by
  intro s
  obtain ⟨hbusy, hvalid, hready, hres, hany, hover, hill⟩ := statusWord_bits s.acq s.stat
  obtain ⟨hacq, hlast, hacc, hzero⟩ := statusWord_fields s.acq s.stat
  have henc : ∀ a, s.acq = a → (coreStatus s).extractLsb' 0 2 = acqBits a := fun a ha => ha ▸ hacq
  exact ⟨henc .idle, henc .measuring, henc .ready, hbusy, hvalid, hready, hlast, hacc, hres, hany, hover, hill, hzero⟩

end Sys2Proof.Machine
end

section
/-! PROOFS. The table of labels (10_state R33, R34): the operation at each label, and the label that follows. -/
namespace Sys2Proof.Machine

variable {s t u v w : State}

/-! ### A step that the host leaves alone -/

theorem step_quiet (hc : configOk s) (hq : quietBoundary s u) : step s = seqStep u := by
  rw [step_of_configOk hc]
  obtain ⟨hh, rfl⟩ | ⟨rest, hh, rfl⟩ := hq
  · exact boundary_nil hh
  · exact boundary_quiet hh

/-- The sequencer performs the operation it picks and then what the position's advance does, unless the operation spins. -/
theorem seqStep_perform {i : Instr} {next : State → State} (hp : pick u = .op i u)
    (hn : ∀ t, exec i u = .next t → t.pos.leaf = none → afterOp u.pos t = next t) : seqStep u = perform i next u := by
  rw [seqStep_op hp]
  unfold perform
  cases he : exec i u with
  | next t =>
    cases hl : t.pos.leaf with
    | none => simp [hl, hn t he hl]
    | some x => simp [afterOp, hl]
  | fault f => rfl
  | refused r => rfl

/-- An operation that enters an inner level is the whole step: the calling label waits for its end. -/
theorem seqStep_enters {i : Instr} (hp : pick u = .op i u) (he : exec i u = .next t) (ht : u.pos.trans = none)
    (hin : t.pos.trans ≠ none ∨ u.pos.proto = none ∧ t.pos.proto ≠ none) : seqStep u = exec i u := by
  rw [seqStep_op hp, he, carryOn_next]
  unfold afterOp
  rw [ht]
  cases t.pos.leaf with
  | some x => rfl
  | none =>
    cases htt : t.pos.trans with
    | some l => rfl
    | none =>
      obtain h | ⟨hup, htp⟩ := hin
      · exact absurd htt h
      · rw [hup]
        cases htp' : t.pos.proto with
        | some l => rfl
        | none => exact absurd htp' htp

/-! ### The transport level -/

/-- At a transport label, spinning in its wait or not, the operation is the label's own. -/
theorem pick_at_trans {l : TransLabel} (ht : u.pos.trans = some l)
    (hf : u.pos.leaf = none ∨ u.pos.leaf = some .waitIdle ∧ l.isWait = true) : pick u = transPick l u := by
  obtain hf | ⟨hf, hw⟩ := hf
  · simp [pick, hf, ht]
  · cases l <;> simp [TransLabel.isWait] at hw <;> simp [pick, hf, transPick]

theorem seqStep_trans {l : TransLabel} {i : Instr} (ht : u.pos.trans = some l) (hp : pick u = .op i u) :
    seqStep u = perform i (advanceTrans l) u :=
  seqStep_perform hp fun t _ hl => by simp [afterOp, hl, ht]

/-- After the sample that follows a byte: the abort on an error, else the next byte (R182). -/
theorem advanceTrans_sE : advanceTrans .sE = fun t => t.atTrans (some (if t.scr.e = 0 then .sD else .sAB)) := by
  funext t
  by_cases h : t.scr.e = 0 <;> simp [advanceTrans, sendAborts, h]

theorem endTransport_eq_primitiveFollows (x : Bool) : endTransport x = primitiveFollows x :=
  funext (endTransport_eq x)

theorem receiveRetries_eq_false (e : BitVec 3) :
    receiveRetries e = false ↔ e.getLsbD 0 = false ∧ e.getLsbD 2 = false := by
  simp [receiveRetries]

/-- The end of an attempt: the first sample with neither ADR_NACK nor BUS_ERR, or the fifth, ends the receive (R186). -/
theorem advanceTrans_rE : advanceTrans .rE = fun t =>
    if t.scr.e.getLsbD 0 = false ∧ t.scr.e.getLsbD 2 = false then primitiveFollows false t
    else if t.scr.att = 5 then primitiveFollows true { t with scr := { t.scr with rb0 := 0xFF, rb1 := 0xFF } }
    else { t with scr := { t.scr with att := t.scr.att + 1 }, pos := { t.pos with trans := some .rW0 } } := by
  funext t
  simp only [← receiveRetries_eq_false, ← endTransport_eq, advanceTrans, endAttempt]
  cases receiveRetries t.scr.e <;> rfl

/-- The byte written at S_D: TX[0], TX[1] and TX[2], and a fault at the absent TX[3] (10_state R39; log entry 20). -/
theorem seqStep_sD (ht : u.pos.trans = some .sD) (hp : pick u = transPick .sD u) :
    seqStep u =
      if u.scr.i = 0 then perform (.wrData u.scr.tx0) (fun t => t.atTrans (some .sC)) u
      else if u.scr.i = 1 then perform (.wrData u.scr.tx1) (fun t => t.atTrans (some .sC)) u
      else if u.scr.i = 2 then perform (.wrData u.scr.tx2) (fun t => t.atTrans (some .sC)) u
      else .fault .txIndex := by
  have hi : u.scr.i = 0 ∨ u.scr.i = 1 ∨ u.scr.i = 2 ∨ u.scr.i = 3 := by
    generalize u.scr.i = i
    revert i
    decide
  have hbyte : ∀ b, txAt u.scr u.scr.i = some b → seqStep u = perform (.wrData b) (fun t => t.atTrans (some .sC)) u :=
    fun b hb => seqStep_trans ht (by rw [hp]; simp only [transPick, hb])
  obtain hi | hi | hi | hi := hi
  · simp [hi, hbyte u.scr.tx0 (by rw [hi]; rfl)]
  · simp [hi, hbyte u.scr.tx1 (by rw [hi]; rfl)]
  · simp [hi, hbyte u.scr.tx2 (by rw [hi]; rfl)]
  · have hn : pick u = .fault .txIndex := by rw [hp]; simp [transPick, txAt, hi]
    simp [seqStep, hn, hi]

/-! ### The protocol and the host level -/

theorem pick_at_proto {l : ProtoLabel} (ht : u.pos.trans = none) (hf : u.pos.leaf = none) (hl : u.pos.proto = some l) :
    pick u = .op (protoOp l u) u := by
  simp [pick, hf, ht, hl]

/-- At T_DEC the operation ends in its own step. -/
theorem seqStep_tDEC (ht : u.pos.trans = none) (hf : u.pos.leaf = none) (hl : u.pos.proto = some .tDEC) :
    seqStep u = perform .decode protoFollows u := by
  refine seqStep_perform (pick_at_proto ht hf hl) fun t he _ => ?_
  obtain rfl := Host.Outcome.next.inj he
  rw [← returnToProto_eq]
  simp [afterOp, returnToProto, hf, ht, hl]

theorem pick_at_host {l : HostLabel} (ht : u.pos.trans = none) (hp : u.pos.proto = none) (hl : u.pos.host = some l)
    (hf : u.pos.leaf = none ∨ u.pos.leaf = some .waitDone ∧ l = .wait) : pick u = hostPick l u := by
  obtain hf | ⟨hf, rfl⟩ := hf
  · simp [pick, hf, ht, hp, hl]
  · simp [pick, hf, hostPick]

/-- At a host label whose operation keeps the levels, the command goes on when that operation is done. -/
theorem seqStep_host {i : Instr} {l : HostLabel} (ht : u.pos.trans = none) (hp : u.pos.proto = none)
    (hl : u.pos.host = some l) (hk : pick u = .op i u)
    (hkeep : ∀ t, exec i u = .next t → t.pos.trans = none ∧ t.pos.proto = none ∧ t.pos.host = some l) :
    seqStep u = perform i hostFollows u := by
  refine seqStep_perform hk fun t he hf => ?_
  obtain ⟨htt, htp, hth⟩ := hkeep t he
  rw [← returnToHost_eq]
  simp [afterOp, returnToHost, hf, ht, hp, hl, htt, htp, hth]

theorem seqStep_complete {r : Bool} (hk : pick u = .complete r) : seqStep u = .next (complete r u) := by
  simp [seqStep, hk]

/-- Settles O8: at each label the sequencer picks that label's operation, and its advance is what the table says follows. -/
theorem stepRunsTheOperationAtThePosition : Obligations.StepRunsTheOperationAtThePosition := by
  intro s u hc hq
  rw [step_quiet hc hq]
  refine ⟨fun l ht hf => ?_, fun l ht hf hl => ?_, fun l ht hp hl hf => ?_⟩
  · have hp := pick_at_trans ht hf
    cases l with
    | sE => rw [seqStep_trans ht hp, advanceTrans_sE]
    | sAB | sEF => rw [← endTransport_eq_primitiveFollows]; exact seqStep_trans ht hp
    | sD => exact seqStep_sD ht hp
    | rE => rw [seqStep_trans ht hp, advanceTrans_rE]
    | _ => exact seqStep_trans ht hp
  · have hp := pick_at_proto ht hf hl
    cases l with
    | tDEC => exact seqStep_tDEC ht hf hl
    | _ => exact seqStep_enters hp rfl ht (.inl nofun)
  · have hk := pick_at_host ht hp hl hf
    cases l with
    | begin | read => exact seqStep_enters hk rfl ht (.inr ⟨hp, nofun⟩)
    | pin | wait =>
      refine seqStep_host ht hp hl hk fun t he => ?_
      obtain rfl := Host.Outcome.next.inj he
      exact ⟨ht, hp, hl⟩
    | complete r => exact seqStep_complete hk

/-! ### Rest, reset and the captures -/

/-- Settles O10: at rest nothing is picked, so a step only takes the host's quiet move. -/
theorem idleMachinePerformsNoEvent : Obligations.IdleMachinePerformsNoEvent := by
  intro s hc ⟨hpos, hslot⟩
  have hrest : ∀ u : State, u.pos = Pos.rest → u.slot = none → seqStep u = .next u := fun u hp hs => by
    simp [seqStep, pick, slotPick, hp, hs, Pos.rest]
  refine ⟨fun hh => ?_, fun rest hh => ?_⟩
  · rw [step_quiet hc (.inl ⟨hh, rfl⟩)]
    exact hrest s hpos hslot
  · rw [step_quiet hc (.inr ⟨rest, hh, rfl⟩)]
    exact hrest _ hpos hslot

/-- Settles O13: the values of R57 and R340, field by field. -/
theorem resetStateOfTheSpec : Obligations.ResetStateOfTheSpec :=
  ⟨rfl, rfl, by decide, rfl, rfl⟩

/-- Settles O27: ERR_SAMPLE is RD_STATUS with its error fields taken into `E`, most significant BUS_ERR (R181). -/
theorem errSampleTakesTheThreeErrorFields : Obligations.ErrSampleTakesTheThreeErrorFields :=
  fun _ => rfl

/-- The end of a primitive called at a protocol label: END_PRIMITIVE's fields, then that label's own end. -/
theorem endTransport_at_proto {l : ProtoLabel} (x : Bool) (h : s.pos.proto = some l) :
    endTransport x s = advanceProto l ((endPrimitive (s.setScr { s.scr with x := x })).atTrans none) := by
  simp [endTransport, returnToProto, h]

/-- Settles O43: the end of RECV2 at T_R0 and T_R1 captures {RB0, RB1}, and the end of SEND3 at T_LS publishes. -/
theorem readResultCapturesAndPublishes : Obligations.ReadResultCapturesAndPublishes := by
  refine fun s => ⟨fun h x => ?_, fun h x => ?_, fun h x => ?_⟩
  · rw [endTransport_at_proto x h]
    exact ⟨rfl, rfl⟩
  · rw [endTransport_at_proto x h]
    rfl
  · rw [endTransport_at_proto x h]
    obtain ⟨-, -, -, hraw, hres, -, -, -, -, -, -, -, -, -, hproto, -⟩ := returnToHost_keeps
      ((publish ((endPrimitive (s.setScr { s.scr with x := x })).atTrans none)).atProto none)
    exact ⟨hraw, hres, hproto⟩

end Sys2Proof.Machine
end

section
/-! PROOFS. RECV2 over its attempts: the failed ones, the one that ends it, and the bytes an attempt captures (10_state R41, R42;
41_transport R186, R187). -/
namespace Sys2Proof.Machine

variable {s : State}

/-! ### Failed attempts -/

/-- A failed attempt before the fifth goes back to R_W0 with the next number. -/
theorem endAttempt_again (hr : receiveRetries s.scr.e = true) (ha : s.scr.att ≠ retryMax) :
    endAttempt s = (s.setScr { s.scr with att := s.scr.att + 1 }).atTrans (some .rW0) := by
  simp [endAttempt, hr, ha]

theorem endAttempt_exhausts (hr : receiveRetries s.scr.e = true) (ha : s.scr.att = retryMax) :
    endAttempt s = endTransport true (s.setScr { s.scr with rb0 := 0xFF, rb1 := 0xFF }) := by
  simp [endAttempt, hr, ha]

theorem endAttempt_succeeds (hr : receiveRetries s.scr.e = false) : endAttempt s = endTransport false s := by
  simp [endAttempt, hr]

/-- `r'` is `r` but for the registers an attempt of RECV2 writes: `ATT`, RB0, RB1 and `E`. -/
def attemptKeeps (r r' : Scratch) : Prop :=
  r' = { r with att := r'.att, rb0 := r'.rb0, rb1 := r'.rb1, e := r'.e }

/-- The registers at the end of an attempt: both bytes read, and the error sampled. -/
def afterAttempt (c : Params) (a : Attempt) (r : Scratch) : Scratch :=
  { r with rb0 := byteOf c.layout a.d0, rb1 := byteOf c.layout a.d1, e := errorOf c a.we }

/-- `z` is RECV2 in progress from `s`, at the end of an attempt: only the parts a transport sequence may change differ, and of the
registers only those of `attemptKeeps`. -/
def Receiving (s z : State) : Prop :=
  ∃ v b p k, z = s.during (some .rE) z.scr v b p z.answers k z.trace ∧ attemptKeeps s.scr z.scr

theorem Receiving.stat {z : State} (h : Receiving s z) : z.stat = s.stat := by
  obtain ⟨v, b, p, k, hz, -⟩ := h
  rw [hz, during_stat]

/-- The sentinel takes the place of both bytes (R186). -/
theorem Receiving.sentinel {z : State} (h : Receiving s z) :
    Receiving s (z.setScr { z.scr with rb0 := 0xFF, rb1 := 0xFF }) := by
  obtain ⟨v, b, p, k, hz, hk⟩ := h
  refine ⟨v, b, p, k, ?_, ?_⟩
  · conv_lhs => rw [hz]
    rfl
  · unfold attemptKeeps at hk ⊢
    rw [hk]
    rfl

section
variable (hc : configOk s) (hh : s.hostIn = []) (hf : s.pos.leaf = none)

include hc hh hf

/-- One failed attempt that is not the fifth. -/
theorem run_bad_attempt {r : Scratch} {v : PortStatus} {b : Byte} {p : BusPort} {ws : List Word} {k : Nat} {es : List Event}
    {a : Attempt} (hi : a.idle s.cfg) (hb : receiveRetries (errorOf s.cfg a.we) = true) (hr : r.att ≠ retryMax) :
    runFor 9 (s.during (some .rW0) r v b p (a.answers ++ ws) k es) =
      .next (s.during (some .rW0) { afterAttempt s.cfg a r with att := r.att + 1 } (statusOf s.cfg.layout a.we)
        (byteOf s.cfg.layout a.d1) ⟨s.cfg.devAddr, .recv, p.byte⟩ ws (k + 6) (a.events s.cfg p.byte ++ es)) := by
  rw [run_attempt hc hh hf hi, endAttempt_again hb hr]
  rfl

/-- Failed attempts, none of them the fifth: nine steps each, and RECV2 stands at R_W0 again, as many attempts on. -/
theorem run_bad_attempts {bad : List Attempt} (hi : ∀ a ∈ bad, a.idle s.cfg)
    (hb : ∀ a ∈ bad, receiveRetries (errorOf s.cfg a.we) = true) :
    ∀ (r : Scratch) (v : PortStatus) (b : Byte) (p : BusPort) (ws : List Word) (k : Nat) (es : List Event),
      r.att.toNat + bad.length ≤ 5 →
      ∃ r' v' b' p' k', runFor (9 * bad.length) (s.during (some .rW0) r v b p (attemptAnswers bad ++ ws) k es) =
        .next (s.during (some .rW0) r' v' b' p' ws k'
          (bad.reverse.flatMap (Attempt.events s.cfg p.byte) ++ es)) ∧
        attemptKeeps r r' ∧ r'.att.toNat = r.att.toNat + bad.length ∧ p'.byte = p.byte := by
  induction bad with
  | nil =>
    intro r v b p ws k es _
    exact ⟨r, v, b, p, k, rfl, rfl, rfl, rfl⟩
  | cons a as ih =>
    intro r v b p ws k es hlen
    rw [List.length_cons] at hlen
    have hmax : retryMax.toNat = 5 := rfl
    have hne : r.att ≠ retryMax := fun h => by rw [h] at hlen; omega
    have hatt : (r.att + 1).toNat = r.att.toNat + 1 := by
      rw [BitVec.toNat_add]
      exact Nat.mod_eq_of_lt (show r.att.toNat + 1 < 8 by omega)
    obtain ⟨r', v', b', p', k', hrun, hkeep, hn, hp⟩ := ih (fun x hx => hi x (by simp [hx])) (fun x hx => hb x (by simp [hx]))
      { afterAttempt s.cfg a r with att := r.att + 1 } (statusOf s.cfg.layout a.we) (byteOf s.cfg.layout a.d1)
      ⟨s.cfg.devAddr, .recv, p.byte⟩ ws (k + 6) (a.events s.cfg p.byte ++ es) (by simp only [hatt]; omega)
    refine ⟨r', v', b', p', k', ?_, hkeep, ?_, hp⟩
    · rw [show 9 * (a :: as).length = 9 + 9 * as.length by rw [List.length_cons]; omega, attemptAnswers, List.append_assoc,
        runFor_add (run_bad_attempt hc hh hf (hi a (by simp)) (hb a (by simp)) hne), hrun]
      simp
    · rw [hn, hatt, List.length_cons]
      omega

/-- RECV2 from its call to the sample of the attempt that ends it: failed attempts, at most four, and one more. -/
theorem run_recv2 {bad : List Attempt} {a : Attempt} {rest : List Word} (hlen : bad.length < 5)
    (ha : s.answers = attemptAnswers bad ++ a.answers ++ rest) (hi : ∀ x ∈ bad, x.idle s.cfg) (hia : a.idle s.cfg)
    (hb : ∀ x ∈ bad, receiveRetries (errorOf s.cfg x.we) = true) :
    ∃ z, runFor (9 * (bad.length + 1)) (enterRecv2 s) = .next (endAttempt z) ∧ Receiving s z ∧
      z.scr.rb0 ++ z.scr.rb1 = a.raw s.cfg ∧ z.scr.e = errorOf s.cfg a.we ∧ z.scr.att.toNat = bad.length + 1 ∧
      z.answers = rest ∧
      z.trace = a.events s.cfg s.port.byte ++ (bad.reverse.flatMap (Attempt.events s.cfg s.port.byte) ++ s.trace) := by
  obtain ⟨r, v, b, p, k, hrun, hkeep, hn, hp⟩ := run_bad_attempts hc hh hf hi hb { s.scr with att := 1 } s.st s.rd s.port
    (a.answers ++ rest) s.draws s.trace (show 1 + bad.length ≤ 5 by omega)
  have hs : enterRecv2 s = s.during (some .rW0) { s.scr with att := 1 } s.st s.rd s.port
      (attemptAnswers bad ++ (a.answers ++ rest)) s.draws s.trace := by
    rw [← List.append_assoc, ← ha]
    rfl
  refine ⟨s.during (some .rE) (afterAttempt s.cfg a r) (statusOf s.cfg.layout a.we) (byteOf s.cfg.layout a.d1)
    ⟨s.cfg.devAddr, .recv, p.byte⟩ rest (k + 6) (a.events s.cfg p.byte ++
      (bad.reverse.flatMap (Attempt.events s.cfg s.port.byte) ++ s.trace)), ?_, ⟨_, _, _, _, rfl, ?_⟩, rfl, rfl, ?_, rfl, ?_⟩
  · rw [show 9 * (bad.length + 1) = 9 * bad.length + 9 from rfl, hs, runFor_add hrun, run_attempt hc hh hf hia]
    rfl
  · rw [hkeep]
    rfl
  · exact hn.trans (Nat.add_comm 1 _)
  · rw [hp]
    rfl

end

/-! ### The end of RECV2 -/

/-- A primitive that nothing called ends with all but its own registers, fields and position as they were (R183 to R188). -/
theorem transportFrame_endTransport {z : State} (x : Bool) (hz : Receiving s z) (hp : s.pos.proto = none) :
    transportFrame s (endTransport x z) := by
  obtain ⟨v, b, p, k, hz, hk⟩ := hz
  rw [hz, hk]
  simp [endTransport, returnToProto, transportFrame, hp, endPrimitiveFlags]

/-- Settles O33: nine steps for each failed attempt, nine for the good one, and END_PRIMITIVE with its bytes and its sample. -/
theorem receiveReturnsTheFirstGoodAttempt : Obligations.ReceiveReturnsTheFirstGoodAttempt := by
  intro s bad good rest hc hh hf hlen ha hi hig hb h0 h2
  obtain ⟨z, hrun, hz, hraw, hze, hzatt, hzans, hztrace⟩ := run_recv2 hc hh hf hlen ha hi hig
    fun a hm => by simpa only [receiveRetries, Bool.or_eq_true] using hb a hm
  rw [endAttempt_succeeds (by rw [hze, receiveRetries, h0, h2]; rfl)] at hrun
  obtain ⟨-, -, -, -, -, hans, -, htrace, -, -, htrans, -⟩ := endTransport_keeps false z
  obtain ⟨he, hx, hb0, hb1, hatt, hlast, hacc, hany⟩ := endTransport_reports false z
  have hframe := transportFrame_endTransport false hz
  rw [hz.stat] at hacc hany
  rw [hze] at he hlast hacc
  refine ⟨_, _, rfl, rfl, hrun, htrans, ?_, he, hx, ?_, hlast, hacc, by simpa using hany, hans.trans hzans,
    htrace.trans hztrace, hframe⟩
  · rw [hb0, hb1, hraw]
  · rw [hatt, hzatt]

/-- Settles O34: after four failed attempts the fifth, failed too, is the last, and its bytes give way to the sentinel. -/
theorem receiveExhaustsAfterFiveAttempts : Obligations.ReceiveExhaustsAfterFiveAttempts := by
  intro s bad last rest hc hh hf hlen ha hi hil hb hbl
  obtain ⟨z, hrun, hz, -, hze, hzatt, hzans, hztrace⟩ := run_recv2 hc hh hf (show bad.length < 5 by omega) ha hi hil hb
  have hfive : z.scr.att = retryMax := BitVec.eq_of_toNat_eq (by rw [hzatt, hlen]; rfl)
  rw [hlen, endAttempt_exhausts (by rw [hze, hbl]) hfive] at hrun
  have hframe := transportFrame_endTransport true hz.sentinel
  obtain ⟨-, -, -, -, -, hans, -, htrace, -, -, htrans, -⟩ :=
    endTransport_keeps true (z.setScr { z.scr with rb0 := 0xFF, rb1 := 0xFF })
  obtain ⟨he, hx, hb0, hb1, hatt, hlast, hacc, hany⟩ :=
    endTransport_reports true (z.setScr { z.scr with rb0 := 0xFF, rb1 := 0xFF })
  have herr : z.stat.accErr ||| z.scr.e = s.stat.accErr ||| errorOf s.cfg last.we := by rw [hz.stat, hze]
  exact ⟨_, _, rfl, hrun, htrans, hb0, hb1, he.trans hze, hx, hatt.trans hfive, hlast.trans hze, hacc.trans herr,
    by simpa using hany, hans.trans hzans, htrace.trans hztrace, hframe⟩

/-! ### One attempt with waits that spin -/

/-- A wait of a transport sequence in the form of Laws/During.lean: busy answers, then the one that ends it. -/
theorem run_wait_during {l m : TransLabel} {r : Scratch} {v : PortStatus} {b : Byte} {p : BusPort} {busy ws : List Word}
    {w : Word} {k : Nat} {es : List Event} (hl : l.isWait = true) (hm : ∀ t, advanceTrans l t = t.atTrans (some m))
    (hc : configOk s) (hh : s.hostIn = []) (hf : s.pos.leaf = none) (hb : ∀ x ∈ busy, ¬ idleAnswer s.cfg x)
    (hw : idleAnswer s.cfg w) :
    runFor (busy.length + 1) (s.during (some l) r v b p (busy ++ w :: ws) k es) =
      .next (s.during (some m) r (statusOf s.cfg.layout w) b p ws (k + busy.length + 1)
        (evRS s.cfg w :: ((busy.map (evRS s.cfg)).reverse ++ es))) := by
  rw [run_wait (s := s.during (some l) r v b p (busy ++ w :: ws) k es) hl hc hh hf rfl rfl hb hw, hm]
  rfl

/-- The reads of a wait read nothing from the data field. -/
theorem dataRead_waits (c : Params) (busy : List Word) :
    ((busy.map (evRS c)).reverse).filterMap Event.dataRead? = [] := by
  simp [List.filterMap_eq_nil_iff, evRS, Event.dataRead?]

/-- The events of an attempt up to its error sample, newest first, when its waits spin through `k0`, `k1` and `k2` (R186). -/
def spunEvents (c : Params) (b : Byte) (k0 k1 k2 : List Word) (w0 w1 d0 w2 d1 : Word) : List Event :=
  evRD c d1 :: evRS c w2 :: ((k2.map (evRS c)).reverse ++ evWC c .recv 0b0101 b ::
    evRD c d0 :: evRS c w1 :: ((k1.map (evRS c)).reverse ++ evWC c .recv 0b1011 b ::
    evWA c .recv :: evRS c w0 :: (k0.map (evRS c)).reverse))

/-- Of these only R_B0 and R_B1 read the data field. -/
theorem dataRead_spunEvents (c : Params) (b : Byte) (k0 k1 k2 : List Word) (w0 w1 d0 w2 d1 : Word) :
    (spunEvents c b k0 k1 k2 w0 w1 d0 w2 d1).filterMap Event.dataRead? = [d1, d0] := by
  simp only [spunEvents, List.filterMap_cons, List.filterMap_append, dataRead_waits]
  rfl

/-- An attempt up to its error sample, each of the three waits with its own busy answers. -/
theorem run_attempt_bytes {r : Scratch} {v : PortStatus} {b : Byte} {p : BusPort} {k0 k1 k2 ws : List Word}
    {w0 w1 d0 w2 d1 : Word} {k : Nat} {es : List Event} (hc : configOk s) (hh : s.hostIn = []) (hf : s.pos.leaf = none)
    (hb : ∀ x ∈ k0 ++ k1 ++ k2, ¬ idleAnswer s.cfg x) (h0 : idleAnswer s.cfg w0) (h1 : idleAnswer s.cfg w1)
    (h2 : idleAnswer s.cfg w2) :
    runFor (k0.length + k1.length + k2.length + 8)
        (s.during (some .rW0) r v b p (k0 ++ w0 :: (k1 ++ w1 :: d0 :: (k2 ++ w2 :: d1 :: ws))) k es) =
      .next (s.during (some .rE) { r with rb0 := byteOf s.cfg.layout d0, rb1 := byteOf s.cfg.layout d1 }
        (statusOf s.cfg.layout w2) (byteOf s.cfg.layout d1) ⟨s.cfg.devAddr, .recv, p.byte⟩ ws
        (k + k0.length + 1 + k1.length + 1 + 1 + k2.length + 1 + 1)
        (spunEvents s.cfg p.byte k0 k1 k2 w0 w1 d0 w2 d1 ++ es)) := by
  rw [show k0.length + k1.length + k2.length + 8 =
      (k0.length + 1) + ((k1.length + 1 + ((k2.length + 1 + 1) + 1 + 1)) + 1 + 1) by omega,
    runFor_add (run_wait_during rfl (fun _ => rfl) hc hh hf (fun x hx => hb x (by simp [hx])) h0),
    runFor_step (during_rSA hc hh hf), runFor_step (during_rC0 hc hh hf rfl rfl),
    runFor_add (run_wait_during rfl (fun _ => rfl) hc hh hf (fun x hx => hb x (by simp [hx])) h1),
    runFor_step (during_rB0 hc hh hf), runFor_step (during_rC1 hc hh hf rfl rfl),
    show k2.length + 2 = k2.length + 1 + 1 from rfl,
    runFor_add (run_wait_during rfl (fun _ => rfl) hc hh hf (fun x hx => hb x (by simp [hx])) h2),
    runFor_step (k := 0) (during_rB1 hc hh hf), runFor_zero]
  simp [spunEvents]

/-- Settles O36: the labels of an attempt in order, from R_W0 to R_E, each wait with its own busy answers. -/
theorem attemptCapturesTheBytesInOrder : Obligations.AttemptCapturesTheBytesInOrder := by
  intro s k0 k1 k2 w0 w1 d0 w2 d1 rest hc hh hf ht ha hb h0 h1 h2
  have hs : s.during (some .rW0) s.scr s.st s.rd s.port s.answers s.draws s.trace = s := by
    rw [← ht]
    rfl
  have hrun := run_attempt_bytes (d0 := d0) (d1 := d1) (ws := rest) (r := s.scr) (v := s.st) (b := s.rd) (p := s.port)
    (k := s.draws) (es := s.trace) hc hh hf hb h0 h1 h2
  rw [← ha, hs] at hrun
  refine ⟨_, hrun, rfl, rfl, rfl, rfl, rfl, rfl, rfl, ?_⟩
  rw [during_trace, List.filterMap_append, dataRead_spunEvents]

end Sys2Proof.Machine
end

section
/-! PROOFS. The fields of a bus-master word, the address parameters, and the control write (20_memory R72, R73, R82; 40 R144). -/
namespace Sys2Proof.Machine

/-! ### Fields placed in a word -/

/-- A bit of the word is the head's own, or stands in what the other positions hold. -/
theorem getLsbD_placeBits_cons (p : Nat) (ps : List Nat) (v k : Nat) :
    (placeBits (p :: ps) v).getLsbD k =
      ((decide (k < 32) && decide (k = p) && decide (v % 2 = 1)) || (placeBits ps (v / 2)).getLsbD k) := by
  have hone : (1#32 <<< p).getLsbD k = (decide (k < 32) && decide (k = p)) := by
    rw [← BitVec.twoPow_eq, BitVec.getLsbD_twoPow]
    grind
  rw [placeBits, BitVec.getLsbD_or]
  by_cases hv : v % 2 = 1 <;> simp [hv, hone]

/-- Every bit at no listed position is 0. -/
theorem getLsbD_placeBits_of_notMem {ps : List Nat} {k : Nat} (hk : k ∉ ps) (v : Nat) :
    (placeBits ps v).getLsbD k = false := by
  induction ps generalizing v with
  | nil => simp [placeBits]
  | cons p ps ih =>
    rw [List.mem_cons, not_or] at hk
    simp [getLsbD_placeBits_cons, hk.1, ih hk.2]

/-- A field depends only on the bits at its positions. -/
theorem extractBits_congr {ps : List Nat} {w w' : Word} (h : ∀ p ∈ ps, w.getLsbD p = w'.getLsbD p) :
    extractBits ps w = extractBits ps w' := by
  induction ps with
  | nil => rfl
  | cons p ps ih =>
    rw [List.forall_mem_cons] at h
    simp only [extractBits, h.1, ih h.2]

/-- A field is read back from the word it was placed in: the head's bit is untouched by the others, and the others by it. -/
theorem extractBits_placeBits {ps : List Nat} (hlt : ∀ p ∈ ps, p < 32) (hnd : ps.Nodup) (v : Nat) :
    extractBits ps (placeBits ps v) = v % 2 ^ ps.length := by
  induction ps generalizing v with
  | nil => simp [extractBits, Nat.mod_one]
  | cons p ps ih =>
    obtain ⟨hp, hlt⟩ := List.forall_mem_cons.mp hlt
    obtain ⟨hmem, hnd⟩ := List.nodup_cons.mp hnd
    have hhead : ((placeBits (p :: ps) v).getLsbD p).toNat = v % 2 := by
      rw [getLsbD_placeBits_cons, getLsbD_placeBits_of_notMem hmem]
      obtain hv | hv := Nat.mod_two_eq_zero_or_one v <;> simp [hp, hv]
    have htail : extractBits ps (placeBits (p :: ps) v) = extractBits ps (placeBits ps (v / 2)) :=
      extractBits_congr fun q hq => by
        have hne : q ≠ p := fun h => hmem (h ▸ hq)
        simp [getLsbD_placeBits_cons, hne]
    rw [extractBits, hhead, htail, ih hlt hnd, List.length_cons, pow_succ', Nat.mod_mul]

/-- Settles O5: by induction on the positions, each bit read back is the one placed there, and no other bit is set. -/
theorem placedFieldReadsBackAlone : Obligations.PlacedFieldReadsBackAlone := by
  intro ps v h
  simp only [distinctBits, Bool.and_eq_true, List.all_eq_true, decide_eq_true_eq] at h
  obtain ⟨hlt, hnd⟩ := h
  exact ⟨extractBits_placeBits hlt hnd v, fun k hk => getLsbD_placeBits_of_notMem hk v⟩

/-! ### The address parameters -/

theorem aligned_iff (a : Word) : aligned a = true ↔ a.toNat % 4 = 0 := by
  simp [aligned, ← BitVec.toNat_inj, BitVec.extractLsb'_toNat]

/-- The alignment check comes first, so it names the refusal whatever else is wrong with the configuration. -/
theorem paramsRefusal_of_misaligned {c : Params}
    (h : c.addrSA.toNat % 4 ≠ 0 ∨ c.addrStatus.toNat % 4 ≠ 0 ∨ c.addrCtl.toNat % 4 ≠ 0 ∨ c.addrDR.toNat % 4 ≠ 0 ∨
      c.pinAddr.toNat % 4 ≠ 0) : paramsRefusal c = some .misalignedAddress := by
  have hall : (aligned c.addrSA && aligned c.addrStatus && aligned c.addrCtl && aligned c.addrDR && aligned c.pinAddr)
      = false := by
    rw [Bool.eq_false_iff]
    simp only [ne_eq, Bool.and_eq_true, aligned_iff]
    omega
  rw [paramsRefusal, hall]
  rfl

/-- Settles O11: the configuration is checked before the boundary. -/
theorem misalignedAddressIsRefused : Obligations.MisalignedAddressIsRefused := by
  intro s h
  rw [step, paramsRefusal_of_misaligned h]

/-! ### The control write -/

/-- The seven rows of R107's table. -/
theorem isBcw_iff : ∀ v : BitVec 5, isBcw v = true ↔ v ∈ [0x07#5, 0x03#5, 0x01#5, 0x05#5, 0x04#5, 0x1B#5, 0x15#5] := by
  decide

/-- Settles O18: the control write launches exactly when its word, with the direction last written, is in the table. -/
theorem wrCtlLaunchesABusCommandWord : Obligations.WrCtlLaunchesABusCommandWord := by
  intro s c
  exact ⟨fun h => if_pos ((isBcw_iff _).mpr h), fun h => if_neg fun hb => h ((isBcw_iff _).mp hb)⟩

end Sys2Proof.Machine
end

section
/-! PROOFS. READ_RESULT as a chain of whole primitives (42_sensor_protocol R228): what each call shows of its events, how calls
compose, and the chain from T_P0 to the publication. -/
namespace Sys2Proof.Machine

variable {s y z : State} {l : ProtoLabel} {e : BitVec 3} {ws ws' : List Word} {es es' : List Event} {n n' : Nat}
  {ds ds' : List Word} {vs vs' : List (BitVec 5)}

/-! ### Composition of calls -/

/-- A primitive after a primitive changes no more than one does. -/
theorem transportFrame.trans (hy : transportFrame s y) (hz : transportFrame y z) : transportFrame s z := by
  obtain ⟨hcfg, hacq, hraw, hres, hin, hslot, hpos, hcw, hrr, hmag, hp, hstat⟩ := hy
  obtain ⟨hcfg', hacq', hraw', hres', hin', hslot', hpos', hcw', hrr', hmag', hp', hstat'⟩ := hz
  refine ⟨hcfg'.trans hcfg, hacq'.trans hacq, hraw'.trans hraw, hres'.trans hres, hin'.trans hin, hslot'.trans hslot, ?_,
    hcw'.trans hcw, hrr'.trans hrr, hmag'.trans hmag, hp'.trans hp, ?_⟩
  · rw [hpos', hpos]
  · rw [hstat', hstat]

/-- What the outside sees of the events `es`, newest first: their number, the words written to the data field, and the bus
command words launched. -/
def Shows (es : List Event) (n : Nat) (ds : List Word) (vs : List (BitVec 5)) : Prop :=
  es.length = n ∧ es.filterMap Event.dataWrite? = ds ∧ es.filterMap Event.bcw? = vs

theorem Shows.append (h : Shows es n ds vs) (h' : Shows es' n' ds' vs') :
    Shows (es ++ es') (n + n') (ds ++ ds') (vs ++ vs') := by
  obtain ⟨rfl, rfl, rfl⟩ := h
  obtain ⟨rfl, rfl, rfl⟩ := h'
  exact ⟨List.length_append, List.filterMap_append, List.filterMap_append⟩

/-- `z` is reached from `s` by whole primitives, the last of which reported `e` and those before it no error; `n`, `ds` and
`vs` say what their events show. -/
def Ran (s : State) (e : BitVec 3) (ws : List Word) (n : Nat) (ds : List Word) (vs : List (BitVec 5)) (z : State) : Prop :=
  ∃ es, Called s e ws es z ∧ Shows es n ds vs

theorem Called.trans (hy : Called s 0 ws es y) (hz : Called y e ws' es' z) : Called s e ws' (es' ++ es) z := by
  obtain ⟨hframe, -, -, -, hacc, hany, -, htrace⟩ := hy
  obtain ⟨hframe', he, hx, hlast, hacc', hany', hans, htrace'⟩ := hz
  refine ⟨hframe.trans hframe', he, hx, hlast, ?_, hany'.trans hany, hans, ?_⟩
  · simp [hacc', hacc]
  · rw [htrace', htrace, List.append_assoc]

theorem Ran.trans (hy : Ran s 0 ws n ds vs y) (hz : Ran y e ws' n' ds' vs' z) :
    Ran s e ws' (n' + n) (ds' ++ ds) (vs' ++ vs) z := by
  obtain ⟨es, hy, hes⟩ := hy
  obtain ⟨es', hz, hes'⟩ := hz
  exact ⟨es' ++ es, hy.trans hz, hes'.append hes⟩

theorem Ran.frame (h : Ran s e ws n ds vs z) : transportFrame s z := by
  obtain ⟨es, ⟨hframe, -⟩, -⟩ := h
  exact hframe

theorem Ran.cfg (h : Ran s e ws n ds vs z) : z.cfg = s.cfg := by
  obtain ⟨hcfg, -⟩ := h.frame
  exact hcfg

theorem Ran.cfgWord (h : Ran s e ws n ds vs z) : z.scr.cfgWord = s.scr.cfgWord := by
  obtain ⟨-, -, -, -, -, -, -, hcw, -⟩ := h.frame
  exact hcw

theorem Ran.answers (h : Ran s e ws n ds vs z) : z.answers = ws := by
  obtain ⟨es, ⟨-, -, -, -, -, -, hans, -⟩, -⟩ := h
  exact hans

theorem Ran.not_exhausted (h : Ran s e ws n ds vs z) : z.scr.x = false := by
  obtain ⟨es, ⟨-, -, hx, -⟩, -⟩ := h
  exact hx

/-! ### What the protocol does between calls -/

/-- The move to the next label, or off the protocol level. -/
theorem Ran.atProto (h : Ran s e ws n ds vs z) (m : Option ProtoLabel) :
    Ran (s.atProto m) e ws n ds vs (z.atProto m) := by
  obtain ⟨es, ⟨⟨hcfg, hacq, hraw, hres, hin, hslot, hpos, hkept⟩, hrep⟩, hes⟩ := h
  refine ⟨es, ⟨⟨hcfg, hacq, hraw, hres, hin, hslot, ?_, hkept⟩, hrep⟩, hes⟩
  rw [State.atProto, State.setPos_pos, hpos]
  rfl

/-- `RR <- r` at the end of the result read: a receive that did not exhaust leaves RES_EXH as it was. -/
theorem Ran.takeResult (h : Ran s e ws n ds vs z) {r : Half} (hr : z.scr.rb0 ++ z.scr.rb1 = r) :
    Ran (s.setScr { s.scr with rr := r }) e ws n ds vs (takeResult z) := by
  have hx := h.not_exhausted
  obtain ⟨es, ⟨⟨hcfg, hacq, hraw, hres, hin, hslot, hpos, hcw, hrr, hmag, hp, hstat⟩, hrep⟩, hes⟩ := h
  refine ⟨es, ⟨⟨hcfg, hacq, hraw, hres, hin, hslot, hpos, hcw, hr, hmag, hp, ?_⟩, hrep⟩, hes⟩
  rw [takeResult_stat, hx, hstat, Bool.or_false]
  rfl

/-- `CFG <- c` at the end of the configuration read. -/
theorem Ran.takeConfig (h : Ran s e ws n ds vs z) {c : Half} (hr : z.scr.rb0 ++ z.scr.rb1 = c) :
    Ran (s.setScr { s.scr with cfgWord := c }) e ws n ds vs (takeConfig z) := by
  obtain ⟨es, ⟨⟨hcfg, hacq, hraw, hres, hin, hslot, hpos, -, hkept⟩, hrep⟩, hes⟩ := h
  exact ⟨es, ⟨⟨hcfg, hacq, hraw, hres, hin, hslot, hpos, hr, hkept⟩, hrep⟩, hes⟩

/-- DECODE takes the magnitude of the reading captured before it (R220). -/
theorem Ran.decode (h : Ran s e ws n ds vs z) :
    Ran (s.setScr { s.scr with mag := magnitude s.scr.rr }) e ws n ds vs
      (z.setScr { z.scr with mag := magnitude z.scr.rr }) := by
  obtain ⟨es, ⟨⟨hcfg, hacq, hraw, hres, hin, hslot, hpos, hcw, hrr, -, hkept⟩, hrep⟩, hes⟩ := h
  exact ⟨es, ⟨⟨hcfg, hacq, hraw, hres, hin, hslot, hpos, hcw, hrr, congrArg magnitude hrr, hkept⟩, hrep⟩, hes⟩

/-- T_PUB publishes RR and MAG, which no primitive writes. -/
theorem Ran.publish (h : Ran s e ws n ds vs z) : Ran (publish s) e ws n ds vs (publish z) := by
  obtain ⟨es, ⟨⟨hcfg, hacq, -, -, hin, hslot, hpos, hcw, hrr, hmag, hkept⟩, hrep⟩, hes⟩ := h
  exact ⟨es, ⟨⟨hcfg, hacq, hrr, congrArg (·.setWidth 32) hmag, hin, hslot, hpos, hcw, hrr, hmag, hkept⟩, hrep⟩, hes⟩

/-! ### One call, with clean answers -/

/-- The sequencer is about to call the operation of the protocol label `l`, and the host does nothing. -/
structure ProtoReady (s : State) (l : ProtoLabel) : Prop where
  config : configOk s
  quiet : s.hostIn = []
  leaf : s.pos.leaf = none
  trans : s.pos.trans = none
  label : s.pos.proto = some l

/-- The captures and the next label leave the machine ready at that label. -/
theorem ProtoReady.next {m : ProtoLabel} (hs : ProtoReady s l) (hcfg : z.cfg = s.cfg) (hin : z.hostIn = s.hostIn)
    (hpos : z.pos = { s.pos with proto := some m }) : ProtoReady z m := by
  refine ⟨?_, hin.trans hs.quiet, ?_, ?_, ?_⟩
  · rw [configOk, hcfg]
    exact hs.config
  all_goals rw [hpos]
  · exact hs.leaf
  · exact hs.trans

/-- Whole primitives leave the machine at the label that called them. -/
theorem Ran.ready (h : Ran s e ws n ds vs z) (hs : ProtoReady s l) : ProtoReady z l := by
  obtain ⟨hcfg, -, -, -, hin, -, hpos, -⟩ := h.frame
  exact hs.next hcfg hin (by rw [hpos, ← hs.trans, ← hs.label])

section
variable (hs : ProtoReady s l)
include hs

theorem run_clean_send1 {b0 : Byte} {a : List Word} (ho : exec (protoOp l s) s = exec (.send1 b0) s) (hlen : a.length = 3)
    (ha : s.answers = a ++ ws) (hw : ∀ w ∈ a, cleanAnswer s.cfg w) :
    ∃ z, runFor 7 s = .next (advanceProto l z) ∧ Ran s 0 ws 6 ([b0].map (dataWord s.cfg.layout)) [0x07#5] z := by
  obtain ⟨w0, w1, w2, rfl⟩ := List.length_eq_three.mp hlen
  simp only [List.forall_mem_cons] at hw
  obtain ⟨⟨h0, -⟩, ⟨h1, -⟩, ⟨-, h2⟩, -⟩ := hw
  obtain ⟨z, hrun, hz⟩ := run_call_send1 hs.config hs.quiet hs.leaf hs.trans hs.label ho ha h0 h1
  rw [h2] at hz
  exact ⟨z, hrun, _, hz, rfl, rfl, rfl⟩

theorem run_clean_send3 {b0 b1 b2 : Byte} {a : List Word} (ho : exec (protoOp l s) s = exec (.send3 b0 b1 b2) s)
    (hlen : a.length = 7) (ha : s.answers = a ++ ws) (hw : ∀ w ∈ a, cleanAnswer s.cfg w) :
    ∃ z, runFor 15 s = .next (advanceProto l z) ∧
      Ran s 0 ws 14 ([b2, b1, b0].map (dataWord s.cfg.layout)) [0x05#5, 0x01#5, 0x03#5] z := by
  match a, hlen with
  | [w0, w1, e1, w2, e2, w3, ef], _ =>
    simp only [List.forall_mem_cons] at hw
    obtain ⟨⟨h0, -⟩, ⟨h1, -⟩, ⟨-, he1⟩, ⟨h2, -⟩, ⟨-, he2⟩, ⟨h3, -⟩, ⟨-, hef⟩, -⟩ := hw
    obtain ⟨z, hrun, hz⟩ :=
      run_call_send3 hs.config hs.quiet hs.leaf hs.trans hs.label ho ha h0 h1 h2 h3 he1 he2
    rw [hef] at hz
    exact ⟨z, hrun, _, hz, rfl, rfl, rfl⟩

theorem run_clean_recv2 {a : Attempt} (ho : exec (protoOp l s) s = exec .recv2 s) (ha : s.answers = a.answers ++ ws)
    (hi : a.idle s.cfg) (hr : receiveRetries (errorOf s.cfg a.we) = false) :
    ∃ z, runFor 10 s = .next (advanceProto l z) ∧ Ran s (errorOf s.cfg a.we) ws 9 [] [0x15#5, 0x1B#5] z ∧
      z.scr.rb0 ++ z.scr.rb1 = a.raw s.cfg := by
  obtain ⟨z, hrun, hz, hraw⟩ := run_call_recv2 hs.config hs.quiet hs.leaf hs.trans hs.label ho ha hi hr
  exact ⟨z, hrun, ⟨_, hz, rfl, rfl, rfl⟩, hraw⟩

end

/-! ### One call after others, none of which reported an error -/

theorem Ran.then_send1 {b0 : Byte} {a : List Word} (hy : Ran s 0 (a ++ ws) n ds vs y)
    (hs : ProtoReady s l) (ho : exec (protoOp l y) y = exec (.send1 b0) y) (hlen : a.length = 3)
    (hw : ∀ w ∈ a, cleanAnswer s.cfg w) :
    ∃ z, runFor 7 y = .next (advanceProto l z) ∧
      Ran s 0 ws (6 + n) ([b0].map (dataWord s.cfg.layout) ++ ds) ([0x07#5] ++ vs) z := by
  have hcfg : y.cfg = s.cfg := hy.cfg
  obtain ⟨z, hrun, hz⟩ := run_clean_send1 (hy.ready hs) ho hlen hy.answers (by rwa [hcfg])
  rw [hcfg] at hz
  exact ⟨z, hrun, hy.trans hz⟩

theorem Ran.then_send3 {b0 b1 b2 : Byte} {a : List Word} (hy : Ran s 0 (a ++ ws) n ds vs y)
    (hs : ProtoReady s l) (ho : exec (protoOp l y) y = exec (.send3 b0 b1 b2) y) (hlen : a.length = 7)
    (hw : ∀ w ∈ a, cleanAnswer s.cfg w) :
    ∃ z, runFor 15 y = .next (advanceProto l z) ∧
      Ran s 0 ws (14 + n) ([b2, b1, b0].map (dataWord s.cfg.layout) ++ ds) ([0x05#5, 0x01#5, 0x03#5] ++ vs) z := by
  have hcfg : y.cfg = s.cfg := hy.cfg
  obtain ⟨z, hrun, hz⟩ := run_clean_send3 (hy.ready hs) ho hlen hy.answers (by rwa [hcfg])
  rw [hcfg] at hz
  exact ⟨z, hrun, hy.trans hz⟩

theorem Ran.then_recv2 {a : Attempt} (hy : Ran s 0 (a.answers ++ ws) n ds vs y)
    (hs : ProtoReady s l) (ho : exec (protoOp l y) y = exec .recv2 y) (hi : a.idle s.cfg) (he : errorOf s.cfg a.we = e)
    (hr : receiveRetries e = false) :
    ∃ z, runFor 10 y = .next (advanceProto l z) ∧ Ran s e ws (9 + n) ds ([0x15#5, 0x1B#5] ++ vs) z ∧
      z.scr.rb0 ++ z.scr.rb1 = a.raw s.cfg := by
  have hcfg : y.cfg = s.cfg := hy.cfg
  obtain ⟨z, hrun, hz, hraw⟩ := run_clean_recv2 (hy.ready hs) ho hy.answers (by rwa [hcfg]) (by rwa [hcfg, he])
  rw [hcfg, he] at hz
  rw [hcfg] at hraw
  exact ⟨z, hrun, hy.trans hz, hraw⟩

/-! ### READ_RESULT -/

/-- At T_DEC the step decodes and moves on to T_P1, with no event. -/
theorem ProtoReady.step_tDEC (hs : ProtoReady s .tDEC) :
    step s = .next ((s.setScr { s.scr with mag := magnitude s.scr.rr }).atProto (some .tP1)) := by
  have hstep := step_at_proto hs.config hs.quiet hs.leaf hs.trans hs.label
    (show exec (protoOp .tDEC s) s = .next (s.setScr { s.scr with mag := magnitude s.scr.rr }) from rfl) hs.leaf
  rw [State.setScr_pos, hs.trans] at hstep
  exact hstep

/-- The latch operations send the configuration register, one bit of it cleared or set (R223, R224). -/
theorem exec_tLC {c : Half} (hc : y.scr.cfgWord = c) : exec (protoOp .tLC y) y =
    exec (.send3 ptrConfig (hiByte (latchCleared c)) (loByte (latchCleared c))) y := by
  rw [← hc]
  rfl

theorem exec_tLS {c : Half} (hc : y.scr.cfgWord = c) : exec (protoOp .tLS y) y =
    exec (.send3 ptrConfig (hiByte (latchSet c)) (loByte (latchSet c))) y := by
  rw [← hc]
  rfl

/-- `s` at the protocol level `l`, with the registers READ_RESULT captures into. -/
def readStage (s : State) (l : Option ProtoLabel) (rr : Half) (mag : BitVec 27) (c : Half) : State :=
  { s with pos := { s.pos with proto := l }, scr := { s.scr with rr := rr, mag := mag, cfgWord := c } }

/-- The bytes READ_RESULT writes, newest first, with `c` the configuration it read. -/
def readSends (c : Half) : List Byte :=
  [loByte (latchSet c), hiByte (latchSet c), ptrConfig, loByte (latchCleared c), hiByte (latchCleared c), ptrConfig, ptrConfig,
    ptrResult]

/-- READ_RESULT from T_P0 to the return, with clean answers: six calls and the decoding. -/
theorem run_readResult {a b d f : List Word} {r c : Attempt} {rest : List Word} (hs : ProtoReady s .tP0) (ha : a.length = 3)
    (hb : b.length = 3) (hd : d.length = 7) (hf : f.length = 7) (hw : ∀ w ∈ a ++ b ++ d ++ f, cleanAnswer s.cfg w)
    (hri : r.idle s.cfg) (hre : errorOf s.cfg r.we = 0) (hci : c.idle s.cfg) (hce : errorOf s.cfg c.we = 0)
    (hans : s.answers = a ++ (r.answers ++ (b ++ (c.answers ++ (d ++ (f ++ rest)))))) :
    ∃ z, runFor 65 s = .next (returnToHost z) ∧
      Ran (publish (readStage s none (r.raw s.cfg) (magnitude (r.raw s.cfg)) (c.raw s.cfg))) 0 rest 58
        ((readSends (c.raw s.cfg)).map (dataWord s.cfg.layout))
        [0x05#5, 0x01#5, 0x03#5, 0x05#5, 0x01#5, 0x03#5, 0x15#5, 0x1B#5, 0x07#5, 0x15#5, 0x1B#5, 0x07#5] z := by
  simp only [List.forall_mem_append] at hw
  obtain ⟨⟨⟨hwa, hwb⟩, hwd⟩, hwf⟩ := hw
  obtain ⟨z1, run1, h1⟩ := run_clean_send1 hs rfl ha hans hwa
  have h1 : Ran (readStage s (some .tR0) s.scr.rr s.scr.mag s.scr.cfgWord) 0 _ _ _ _ _ := h1.atProto _
  obtain ⟨z2, run2, h2, hr⟩ := h1.then_recv2 (hs.next rfl rfl rfl) rfl hri hre rfl
  have h2 : Ran (readStage s (some .tDEC) (r.raw s.cfg) s.scr.mag s.scr.cfgWord) 0 _ _ _ _ _ :=
    (h2.takeResult hr).atProto _
  have run3 := (h2.ready (hs.next rfl rfl rfl)).step_tDEC
  have h3 : Ran (readStage s (some .tP1) (r.raw s.cfg) (magnitude (r.raw s.cfg)) s.scr.cfgWord) 0 _ _ _ _ _ :=
    h2.decode.atProto _
  obtain ⟨z4, run4, h4⟩ := h3.then_send1 (hs.next rfl rfl rfl) rfl hb hwb
  have h4 : Ran (readStage s (some .tR1) (r.raw s.cfg) (magnitude (r.raw s.cfg)) s.scr.cfgWord) 0 _ _ _ _ _ := h4.atProto _
  obtain ⟨z5, run5, h5, hc⟩ := h4.then_recv2 (hs.next rfl rfl rfl) rfl hci hce rfl
  have h5 : Ran (readStage s (some .tLC) (r.raw s.cfg) (magnitude (r.raw s.cfg)) (c.raw s.cfg)) 0 _ _ _ _ _ :=
    (h5.takeConfig hc).atProto _
  obtain ⟨z6, run6, h6⟩ := h5.then_send3 (hs.next rfl rfl rfl) (exec_tLC h5.cfgWord) hd hwd
  have h6 : Ran (readStage s (some .tLS) (r.raw s.cfg) (magnitude (r.raw s.cfg)) (c.raw s.cfg)) 0 _ _ _ _ _ := h6.atProto _
  obtain ⟨z7, run7, h7⟩ := h6.then_send3 (hs.next rfl rfl rfl) (exec_tLS h6.cfgWord) hf hwf
  refine ⟨(publish z7).atProto none, ?_, h7.publish.atProto none⟩
  rw [show 65 = 7 + (10 + (7 + (10 + (15 + 15)) + 1)) from rfl]
  exact (runFor_add run1).trans <| (runFor_add run2).trans <| (runFor_step run3).trans <| (runFor_add run4).trans <|
    (runFor_add run5).trans <| (runFor_add run6).trans run7

/-- Settles O41: the run of READ_RESULT, which then returns to its caller, and what its events show. -/
theorem readResultCompletes : Obligations.ReadResultCompletes := by
  intro s a b r c d f rest hc hh hl ht hla hlb hld hlf hw hri hre hci hce hans
  obtain ⟨z, hrun, es, ⟨hframe, -, -, hlast, -, -, hzans, htrace⟩, hlen, hdata, hbcw⟩ :=
    run_readResult (s := s.atProto (some .tP0)) ⟨hc, hh, hl, ht, rfl⟩ hla hlb hld hlf hw hri hre.2 hci hce.2
      (by simpa using hans)
  obtain ⟨-, hacq, hraw, hres, -, -, hpos, hcw, -, -, hp, hstat⟩ := hframe
  obtain ⟨-, hscr, hstat', hraw', hres', -, -, -, -, hans', -, htrace', -, -, hproto, htrans, hleaf, -⟩ :=
    returnToHost_keeps z
  have hexh : z.stat.resExh = s.stat.resExh := by
    rw [hstat]
    rfl
  have hcaller : s.pos.host = none → (returnToHost z).acq = s.acq ∧ (returnToHost z).pos.host = none := fun hhost => by
    have hz : z.pos.host = none := (congrArg Pos.host hpos).trans hhost
    rw [show returnToHost z = z by simp [returnToHost, hz]]
    exact ⟨hacq, hz⟩
  rw [← hscr] at hcw hp
  rw [← hstat'] at hlast hexh
  refine ⟨_, _, rfl, rfl, hrun, hleaf.trans ((congrArg Pos.leaf hpos).trans hl), htrans.trans (congrArg Pos.trans hpos),
    hproto.trans (congrArg Pos.proto hpos), hcaller, hp, hraw'.trans hraw, hres'.trans hres, hcw, hexh, hlast,
    hans'.trans hzans, ?_⟩
  rw [htrace', htrace]
  refine ⟨?_, ?_, ?_⟩
  · rw [List.length_append, hlen, Nat.add_comm]
    rfl
  · rw [List.filterMap_append, hdata]
    rfl
  · rw [List.filterMap_append, hbcw]
    rfl

end Sys2Proof.Machine
end

section
/-! PROOFS. The encodings of the operations (30_encoding R107, R110, R111, R113, R117): decode and encode undo each other, and
what each format reserves. -/
namespace Sys2Proof

/-! ### Fields of an operand byte -/

theorem dirOfBit_dirBit (d : Dir) : dirOfBit (dirBit d) = d := by
  cases d <;> rfl

theorem dirBit_dirOfBit (b : BitVec 1) : dirBit (dirOfBit b) = b := by
  revert b
  decide

theorem dirBit_inj {d e : Dir} : dirBit d = dirBit e ↔ d = e := by
  cases d <;> cases e <;> decide

/-- The operand byte of WR_ADDR, `{A[6:0], D}` (R100). -/
theorem fields_of_addressByte (a : BitVec 7) (d : Dir) :
    BitVec.extractLsb' 1 7 (a ++ dirBit d : Byte) = a ∧ BitVec.extractLsb' 0 1 (a ++ dirBit d : Byte) = dirBit d :=
  ⟨BitVec.extractLsb'_append_eq_left, BitVec.extractLsb'_append_eq_right⟩

/-- A control half widened to a byte has nothing above it (the operand byte of WR_CTL, R102). -/
theorem halves_of_setWidth : ∀ c : BitVec 4, (c.setWidth 8).extractLsb' 4 4 = 0#4 ∧ (c.setWidth 8).extractLsb' 0 4 = c := by
  decide

/-- A byte whose upper half is 0 is its lower half, widened (the operand byte of WR_CTL, R113). -/
theorem setWidth_low_half {b : Byte} (h : b.extractLsb' 4 4 = 0#4) : (b.extractLsb' 0 4).setWidth 8 = b := by
  rw [← BitVec.toNat_inj] at h ⊢
  simp [BitVec.extractLsb'_toNat] at h ⊢
  omega

/-- Masking a byte to a format's width is keeping its low bits (R117). -/
theorem and_formatMask (f : Format) (v : Byte) :
    v &&& BitVec.ofNat 8 (2 ^ formatWidth f - 1) = (v.setWidth (formatWidth f)).setWidth 8 := by
  have hmask : 2 ^ formatWidth f - 1 < 2 ^ 8 := by cases f <;> decide
  have hlow : v.toNat % 2 ^ formatWidth f < 2 ^ 8 := (Nat.mod_le _ _).trans_lt v.isLt
  rw [← BitVec.toNat_inj, BitVec.toNat_and, BitVec.toNat_ofNat, Nat.mod_eq_of_lt hmask, Nat.and_two_pow_sub_one_eq_mod,
    BitVec.toNat_setWidth, BitVec.toNat_setWidth, Nat.mod_eq_of_lt hlow]

/-! ### Decoding what was encoded -/

/-- Settles O1: each row's value selects the row again, and the operand fields of WR_ADDR and WR_CTL come apart as they were
put together; every other operand is a whole byte. -/
theorem decodeOfEncodeIsTheOperation : Obligations.DecodeOfEncodeIsTheOperation := by
  intro i rest
  cases i with
  | wrAddr a d =>
    obtain ⟨ha, hd⟩ := fields_of_addressByte a d
    simp [decode, formatOf, encode, decodePort, ha, hd, dirOfBit_dirBit]
  | wrCtl c =>
    obtain ⟨hhi, hlo⟩ := halves_of_setWidth c
    simp [decode, formatOf, encode, decodePort, hhi, hlo]
  | _ => rfl

/-! ### Encoding what was decoded -/

/-- The bytes `t :: bs`, `t` a value of the format `f`, are those of the operation `i` and then `rest`. -/
def Encodes (f : Format) (t : BitVec (formatWidth f)) (bs : List Byte) (i : Instr) (rest : List Byte) : Prop :=
  formatOf i = f ∧ encode i ++ rest = t.setWidth 8 :: bs

variable {bs rest : List Byte} {i : Instr}

/-! One lemma a format: the row that matched is the row of the value, operand bytes included. -/

theorem encodes_of_decodeBcw {t : BitVec 5} (h : decodeBcw t = .ok i) : Encodes .bcw t bs i bs := by
  unfold decodeBcw at h
  split at h
  all_goals cases h
  all_goals exact ⟨rfl, rfl⟩

theorem encodes_of_decodeCommand {t : BitVec 2} (h : decodeCommand t = .ok i) : Encodes .hcmd t bs i bs := by
  unfold decodeCommand at h
  split at h
  all_goals cases h
  all_goals exact ⟨rfl, rfl⟩

theorem encodes_of_decodeSeq {t : BitVec 4} (h : decodeSeq t bs = .ok (i, rest)) : Encodes .seq t bs i rest := by
  unfold decodeSeq at h
  split at h
  case h_3 | h_4 | h_5 => -- SEND1, SEND2, SEND3
    split at h
    all_goals cases h
    exact ⟨rfl, rfl⟩
  all_goals cases h
  all_goals exact ⟨rfl, rfl⟩

theorem encodes_of_decodePort {t : BitVec 3} (h : decodePort t bs = .ok (i, rest)) : Encodes .port t bs i rest := by
  unfold decodePort at h
  split at h
  case h_2 => -- WR_ADDR
    split at h
    · next b bs =>
      cases h
      exact ⟨rfl, by rw [encode, dirBit_dirOfBit, BitVec.extractLsb'_append_extractLsb']; rfl⟩
    · cases h
  case h_3 => -- WR_DATA
    split at h
    all_goals cases h
    exact ⟨rfl, rfl⟩
  case h_4 => -- WR_CTL
    split at h
    · split at h
      · next b bs hb =>
        cases h
        exact ⟨rfl, by rw [encode, setWidth_low_half hb]; rfl⟩
      · cases h
    · cases h
  all_goals cases h
  all_goals exact ⟨rfl, rfl⟩

theorem withRest_eq_ok {r : Except DecodeError Instr} (h : withRest r bs = .ok (i, rest)) : r = .ok i ∧ rest = bs := by
  cases r <;> cases h
  exact ⟨rfl, rfl⟩

/-- Settles O2: in each format the row found is the row of the masked value, and its operands are the bytes read. -/
theorem decodedBytesEncodeAgain : Obligations.DecodedBytesEncodeAgain := by
  intro f v bs i rest h
  rw [and_formatMask]
  cases f with
  | port => exact encodes_of_decodePort h
  | seq => exact encodes_of_decodeSeq h
  | bcw =>
    obtain ⟨hi, rfl⟩ := withRest_eq_ok h
    exact encodes_of_decodeBcw hi
  | hcmd =>
    obtain ⟨hi, rfl⟩ := withRest_eq_ok h
    exact encodes_of_decodeCommand hi

/-! ### Reserved values -/

theorem withRest_eq_error {r : Except DecodeError Instr} {e : DecodeError} : withRest r bs = .error e ↔ r = .error e := by
  cases r <;> simp [withRest]

theorem decodeBcw_eq_error : ∀ t : BitVec 5,
    decodeBcw t = .error .reservedBcw ↔ t ∉ [0x07#5, 0x03#5, 0x01#5, 0x05#5, 0x04#5, 0x1B#5, 0x15#5] := by
  decide

theorem decodeCommand_eq_error : ∀ t : BitVec 2, decodeCommand t = .error .reservedCommand ↔ t = 0b00#2 := by
  decide

/-- The tags that match no row; the rows with an operand byte fail only for errors of their own. -/
theorem decodePort_eq_unused (t : BitVec 3) : decodePort t bs = .error .unusedPortTag ↔ 0b110#3 ≤ t := by
  unfold decodePort
  split
  case h_2 | h_3 => cases bs <;> simp
  case h_4 => cases bs <;> simp; split <;> simp
  case h_7 => simp only [true_iff]; revert t; decide
  all_goals simp

theorem decodeSeq_eq_unused (t : BitVec 4) : decodeSeq t bs = .error .unusedSeqTag ↔ 0xC#4 ≤ t := by
  unfold decodeSeq
  split
  case h_3 | h_4 | h_5 => split <;> simp
  case h_13 => simp only [true_iff]; revert t; decide
  all_goals simp

/-- Settles O3: the value is masked first, and a missing operand byte or a bit above `CTL[3:0]` has an error of its own. -/
theorem reservedEncodingsAreRejected : Obligations.ReservedEncodingsAreRejected := fun _ _ =>
  ⟨withRest_eq_error.trans (decodeBcw_eq_error _), withRest_eq_error.trans (decodeCommand_eq_error _),
    decodePort_eq_unused _, decodeSeq_eq_unused _⟩

/-- Settles O4: five rows of the tables, two of them with operand bytes. -/
theorem tableWordsDecode : Obligations.TableWordsDecode :=
  ⟨rfl, rfl, rfl, rfl, rfl⟩

end Sys2Proof
end

section
/-! PROOFS. The operations as a step runs them: a command event, the slot, DECODE and the latch operations (30_encoding R109,
R110; 42 R220, R223, R224). -/
namespace Sys2Proof.Machine

/-- The bytes of a command event's op code decode to the operation it names (R110). -/
theorem commandOp_of_decode {op : BitVec 2} {i : Instr} {rest : List Byte}
    (h : Sys2Proof.decode .hcmd [op.setWidth 8] = .ok (i, rest)) : commandOp op = some i := by
  obtain ⟨hi, -⟩ := withRest_eq_ok h
  rw [show (op.setWidth 8).setWidth 2 = op by simp] at hi
  simp [commandOp, hi]

/-- Settles O7: the boundary takes the command event and runs the operation its op code decodes to. -/
theorem stepRunsTheCommandEvent : Obligations.StepRunsTheCommandEvent := by
  intro s op rest i hc hh hd
  rw [step_of_configOk hc, boundary_cmd hh, commandStep, commandOp_of_decode hd]
  rfl

/-- An operation picked at rest has no sequence to carry on. -/
theorem carryOn_rest {p : Pos} (hp : p = Pos.rest) (o : Host.Outcome State Fault Refusal) : carryOn p o = o := by
  cases o <;> simp [carryOn, hp, afterOp_rest]

/-- Settles O9: at rest the sequencer picks the slot's operation, and has no sequence to carry on after it. -/
theorem stepRunsTheFetchedOperation : Obligations.StepRunsTheFetchedOperation := by
  intro s f bs rest i hc hh hp hs hd
  have hk : pick s = .op i (s.setSlot none) := by simp [pick, slotPick, hp, Pos.rest, hs, hd]
  rw [step_of_configOk hc, boundary_nil hh, seqStep_op hk, carryOn_rest hp]
  rfl

/-- Shifting a 12-bit mantissa by a 4-bit exponent loses no bit in 27. -/
theorem magnitude_toNat (raw : Half) : (magnitude raw).toNat = (mantissaOf raw).toNat * 2 ^ (exponentOf raw).toNat ∧
    (magnitude raw).toNat ≤ 4095 * 2 ^ 15 := by
  have hle : (mantissaOf raw).toNat * 2 ^ (exponentOf raw).toNat ≤ 4095 * 2 ^ 15 :=
    Nat.mul_le_mul (Nat.le_of_lt_succ (mantissaOf raw).isLt)
      (Nat.pow_le_pow_right (by decide) (Nat.le_of_lt_succ (exponentOf raw).isLt))
  have heq : (magnitude raw).toNat = (mantissaOf raw).toNat * 2 ^ (exponentOf raw).toNat := by
    rw [magnitude, BitVec.toNat_shiftLeft, BitVec.toNat_setWidth, Nat.shiftLeft_eq,
      Nat.mod_eq_of_lt ((mantissaOf raw).isLt.trans (by decide)), Nat.mod_eq_of_lt (by omega)]
  exact ⟨heq, heq ▸ hle⟩

/-- Settles O37: the magnitude of `RR` is the exact product. -/
theorem decodeIsMantissaTimesPowerOfTwo : Obligations.DecodeIsMantissaTimesPowerOfTwo := by
  intro s
  obtain ⟨heq, hle⟩ := magnitude_toNat s.scr.rr
  exact ⟨magnitude s.scr.rr, rfl, heq, hle⟩

/-- Settles O38: both are SEND3's operand load and entry, of the configuration word with its latch bit changed. -/
theorem latchOperationsEnterSend3 : Obligations.LatchOperationsEnterSend3 :=
  fun _ => ⟨rfl, rfl⟩

end Sys2Proof.Machine
end

section
/-! PROOFS. The control and address words that reach the bus master: the seven bus command words, and the one sensor
(30_encoding R100, R107, R113; 40 R151 to R157). -/
namespace Sys2Proof.Machine

variable {s t u v w : State}

/-! ### The bus command words -/

theorem bcwOf_dir (d : Dir) (c : BitVec 4) : (bcwOf d c).extractLsb' 4 1 = dirBit d :=
  BitVec.extractLsb'_append_eq_left

theorem bcwOf_control (d : Dir) (c : BitVec 4) : (bcwOf d c).extractLsb' 0 4 = c :=
  BitVec.extractLsb'_append_eq_right

/-- Each bus command word is one of the table, issued in its own direction (R151 to R157). -/
theorem exec_bcw {i : Instr} {v : BitVec 5}
    (h : (i, v) ∈ [(Instr.sendSingle, 0x07#5), (Instr.sendStart, 0x03#5), (Instr.sendCont, 0x01#5),
      (Instr.sendFinish, 0x05#5), (Instr.sendErrStop, 0x04#5), (Instr.recvStartAck, 0x1B#5), (Instr.recvFinish, 0x15#5)]) :
    ∃ d c, v = bcwOf d c ∧ isBcw v = true ∧ ∀ s, exec i s = issueBcw d c s := by
  simp only [List.mem_cons, Prod.mk.injEq, List.not_mem_nil, or_false] at h
  obtain ⟨rfl, rfl⟩ | ⟨rfl, rfl⟩ | ⟨rfl, rfl⟩ | ⟨rfl, rfl⟩ | ⟨rfl, rfl⟩ | ⟨rfl, rfl⟩ | ⟨rfl, rfl⟩ := h
  all_goals exact ⟨_, _, rfl, rfl, fun _ => rfl⟩

/-- Settles O21: with the direction last written its own, the word launches as it is; otherwise it would be another word. -/
theorem busCommandWordsLaunch : Obligations.BusCommandWordsLaunch := by
  intro s i v h
  obtain ⟨d, c, rfl, hb, he⟩ := exec_bcw h
  rw [he, bcwOf_dir, bcwOf_control, Ne, dirBit_inj]
  refine ⟨fun hd => ?_, fun hd => if_neg hd⟩
  rw [issueBcw_of_dir hd hb, ← hd]
  rfl

/-! ### The event of an operation -/

/-- The event an operation performs, if it performs one: a launch of a bus command word, WR_ADDR's address word, a data word, or
a read. -/
theorem exec_event {i : Instr} (h : exec i s = .next t) :
    t.trace = s.trace ∨ ∃ e, t.trace = e :: s.trace ∧
      ((∃ a w v x b, isBcw v = true ∧ e = .launch a w v x b) ∨
       (∃ a d, i = .wrAddr a d ∧ e = .write .addr s.cfg.addrSA (addrWord s.cfg.layout a d)) ∨
       (∃ a w, e = .write .data a w) ∨ ∃ c a w, e = .read c a w) := by
  cases i with
  | wrCtl c =>
    obtain ⟨hb, rfl⟩ := issueControl_eq_next h
    exact .inr ⟨_, rfl, .inl ⟨_, _, _, _, _, hb, rfl⟩⟩
  | sendSingle | sendStart | sendCont | sendFinish | sendErrStop | recvStartAck | recvFinish =>
    obtain ⟨-, hb, rfl⟩ := issueBcw_eq_next h
    exact .inr ⟨_, rfl, .inl ⟨_, _, _, _, _, hb, rfl⟩⟩
  | wrAddr a d =>
    obtain rfl := Host.Outcome.next.inj h
    exact .inr ⟨_, rfl, .inr (.inl ⟨a, d, rfl, rfl⟩)⟩
  | wrData b =>
    obtain rfl := Host.Outcome.next.inj h
    exact .inr ⟨_, rfl, .inr (.inr (.inl ⟨_, _, rfl⟩))⟩
  | rdStatus | rdData | rdPin | waitIdle | errSample | waitDone =>
    obtain rfl := Host.Outcome.next.inj h
    exact .inr ⟨_, rfl, .inr (.inr (.inr ⟨_, _, _, rfl⟩))⟩
  | start | pollEnd | blockingRead =>
    obtain ⟨-, rfl⟩ | ⟨-, op, a, l, rfl, -⟩ := exec_command rfl h
    all_goals exact .inl rfl
  | _ =>
    obtain rfl := Host.Outcome.next.inj h
    exact .inl rfl

/-- What a step adds to the history: nothing, the response of a completion, or the event of the operation the sequencer picked;
neither a reset nor a command event adds one. -/
theorem step_trace (h : step s = .next t) :
    t.trace = s.trace ∨ (∃ r x y, t.trace = .resp r x y :: s.trace) ∨
    ∃ u i v w, u.cfg = s.cfg ∧ u.slot = s.slot ∧ pick u = .op i v ∧ v.trace = s.trace ∧ exec i v = .next w ∧
      t.trace = w.trace := by
  obtain ⟨rest, -, rfl⟩ | ⟨op, rest, -, -, rfl⟩ | ⟨op, rest, i, -, hop, he⟩ | ⟨u, hu, hseq⟩ := step_cases h
  · exact .inl (resetEvent_cfg_trace (s.setHostIn rest)).2
  · exact .inl (reservedCommand_cfg_trace (s.setHostIn rest)).2
  · have hi : formatOf i = .hcmd := by
      obtain ⟨-, rfl⟩ | ⟨-, rfl⟩ | ⟨-, rfl⟩ := commandOp_cases hop
      all_goals rfl
    obtain ⟨-, rfl⟩ | ⟨-, _, _, _, rfl, -⟩ := exec_command hi he
    all_goals exact .inl rfl
  · obtain ⟨hcfg, htrace, hslot⟩ : u.cfg = s.cfg ∧ u.trace = s.trace ∧ u.slot = s.slot := by
      obtain ⟨-, rfl⟩ | ⟨rest, -, rfl⟩ := hu
      all_goals exact ⟨rfl, rfl, rfl⟩
    obtain ⟨i, v, w, hp, he, rfl⟩ | ⟨r, -, rfl⟩ | ⟨-, rfl⟩ := hseq
    · obtain ⟨-, hv⟩ := pick_op_cfg_trace hp
      obtain ⟨-, -, -, -, -, -, -, hw, -⟩ := afterOp_keeps u.pos w
      exact .inr (.inr ⟨u, i, v, w, hcfg, hslot, hp, hv.trans htrace, he, hw⟩)
    · exact .inr (.inl ⟨r, _, _, by rw [complete_trace, htrace]⟩)
    · exact .inl htrace

/-- Every launch in the history is of one of the seven bus command words (R107). -/
def launchesBcws (es : List Event) : Prop :=
  ∀ e ∈ es, ∀ v, e.bcw? = some v → v ∈ [0x07#5, 0x03#5, 0x01#5, 0x05#5, 0x04#5, 0x1B#5, 0x15#5]

/-- An operation launches only words that its control write has checked (40 R144). -/
theorem launchesBcws_exec {i : Instr} (hs : launchesBcws s.trace) (h : exec i s = .next t) : launchesBcws t.trace := by
  obtain ht | ⟨e, ht, he⟩ := exec_event h
  · rwa [ht]
  · rw [ht]
    refine List.forall_mem_cons.mpr ⟨fun v hv => ?_, hs⟩
    obtain ⟨a, w, v', x, b, hb, rfl⟩ | ⟨a, d, -, rfl⟩ | ⟨a, w, rfl⟩ | ⟨c, a, w, rfl⟩ := he
    · obtain rfl := Option.some.inj hv
      exact (isBcw_iff _).mp hb
    all_goals cases hv

/-- Settles O22: the history grows by an operation's event or by a response, and a response launches nothing. -/
theorem onlyTheSevenBusCommandWords : Obligations.OnlyTheSevenBusCommandWords := by
  intro s t h (hs : launchesBcws s.trace)
  show launchesBcws t.trace
  obtain ht | ⟨r, x, y, ht⟩ | ⟨u, i, v, w, -, -, -, hv, he, ht⟩ := step_trace h
  · rwa [ht]
  · rw [ht]
    exact List.forall_mem_cons.mpr ⟨nofun, hs⟩
  · rw [ht]
    exact launchesBcws_exec (by rwa [hv]) he

/-! ### The address words -/

/-- Only WR_ADDR writes the address field. -/
theorem exec_address_write {i : Instr} {a w : Word} (h : exec i s = .next t) (ht : t.trace = .write .addr a w :: s.trace) :
    ∃ b d, i = .wrAddr b d ∧ a = s.cfg.addrSA ∧ w = addrWord s.cfg.layout b d := by
  obtain hn | ⟨e, hadd, he⟩ := exec_event h
  · exact absurd (ht.symm.trans hn) (List.cons_ne_self _ _)
  · obtain rfl : e = .write .addr a w := (List.cons.inj (hadd.symm.trans ht)).1
    obtain ⟨_, _, _, _, _, -, he⟩ | ⟨b, d, rfl, he⟩ | ⟨_, _, he⟩ | ⟨_, _, _, he⟩ := he
    · cases he
    · cases he
      exact ⟨b, d, rfl, rfl, rfl⟩
    all_goals cases he

/-- With nothing in the slot, the sequencer picks WR_ADDR at the address labels of SEND and RECV2 alone (41 R182, R186). -/
theorem pick_wrAddr {a : BitVec 7} {d : Dir} (hs : u.slot = none) (h : pick u = .op (.wrAddr a d) v) :
    v = u ∧ a = u.cfg.devAddr := by
  obtain ⟨-, ⟨-, hi⟩ | ⟨-, hi⟩⟩ | ⟨-, rfl, l, -, hl⟩ | ⟨-, -, -, l, -, hi⟩ | ⟨-, -, -, -, l, -, hl⟩ |
    ⟨-, -, -, -, -, r, rest, hr, -⟩ := pick_op h
  · cases hi
  · cases hi
  · refine ⟨rfl, ?_⟩
    cases l
    case sSA | rSA => cases hl; rfl
    case sC0 | sC | sD => simp only [transPick] at hl; split at hl <;> cases hl
    all_goals cases hl
  · cases l <;> cases hi
  · cases l <;> cases hl
  · simp [hs] at hr

/-- Settles O23: the only operation that writes the address field is picked at a transport label, with DEV_ADDR. -/
theorem onlyTheOneSensorIsAddressed : Obligations.OnlyTheOneSensorIsAddressed := by
  intro s t a w hslot h ht
  obtain hn | ⟨r, x, y, hn⟩ | ⟨u, i, v, w', hcfg, hnone, hp, hv, he, hw⟩ := step_trace h
  · exact absurd (ht.symm.trans hn) (List.cons_ne_self _ _)
  · cases ht.symm.trans hn
  · obtain ⟨b, d, rfl, rfl, rfl⟩ := exec_address_write he (by rw [← hw, ht, hv])
    obtain ⟨rfl, rfl⟩ := pick_wrAddr (hnone.trans hslot) hp
    rw [hcfg]
    exact ⟨rfl, d, rfl⟩

end Sys2Proof.Machine
end

section
/-! PROOFS. The register-port micro-operations: one event each, and nothing changed but what it returns or sets (40 R141 to R143,
R145, R146). -/
namespace Sys2Proof.Machine

/-- Settles O15: RD_STATUS takes one answer and returns its four status bits. -/
theorem rdStatusReturnsTheLogicalStatus : Obligations.RdStatusReturnsTheLogicalStatus :=
  fun _ => rfl

/-- Settles O16: WR_ADDR only writes, and sets the address and direction of the next launch. -/
theorem wrAddrWritesTheAddressField : Obligations.WrAddrWritesTheAddressField :=
  fun _ _ _ => rfl

/-- Settles O17: WR_DATA only writes, and sets the byte of the next launch. -/
theorem wrDataWritesTheDataField : Obligations.WrDataWritesTheDataField :=
  fun _ _ => rfl

/-- Settles O19: RD_DATA takes one answer and returns its byte. -/
theorem rdDataReturnsTheByte : Obligations.RdDataReturnsTheByte :=
  fun _ => rfl

/-- The sample is whether any bit of the mask is set in the word (R146). -/
theorem pinOf_eq_decide (mask w : Word) : pinOf mask w = decide (w &&& mask ≠ 0) :=
  decide_not.symm

/-- Settles O20: RD_PIN takes one answer and stores its sample in `P`. -/
theorem rdPinSamplesTheBusyPin : Obligations.RdPinSamplesTheBusyPin := by
  intro s
  rw [← pinOf_eq_decide]
  rfl

end Sys2Proof.Machine
end

section
/-! PROOFS. SEND2 and SEND3 that nothing need have called: the success path of three bytes, and the aborts after the first and
the second (41_transport R182, R184, R185). -/
namespace Sys2Proof.Machine

variable {s : State}

/-! ### The end of a send -/

/-- What a send from `s` that has ended in `u` reports and leaves: it returned `e` and is not exhausted, consumed answers down to
`ws`, and performed the events `es`, newest first (R185, R188). -/
def SendEnded (s : State) (e : BitVec 3) (ws : List Word) (es : List Event) (u : State) : Prop :=
  u.pos.trans = none ∧ u.scr.e = e ∧ u.scr.x = false ∧ u.stat.lastErr = e ∧ u.stat.accErr = s.stat.accErr ||| e ∧
  u.stat.anyExh = s.stat.anyExh ∧ u.answers = ws ∧ u.trace = es ++ s.trace ∧ (s.pos.proto = none → transportFrame s u)

/-- A send in progress ends so, whether or not a protocol operation goes on from there. -/
theorem sendEnded_endTransport {t : Option TransLabel} {r : Scratch} {v : PortStatus} {b : Byte} {p : BusPort}
    {ws : List Word} {k : Nat} {es : List Event} (h1 : r.cfgWord = s.scr.cfgWord) (h2 : r.rr = s.scr.rr)
    (h3 : r.mag = s.scr.mag) (h4 : r.p = s.scr.p) :
    SendEnded s r.e ws es (endTransport false (s.during t r v b p ws k (es ++ s.trace))) := by
  obtain ⟨z, hz, ⟨hframe, -⟩, -⟩ :=
    called_of_end (s := s) (ws := ws) (v := v) (b := b) (p := p) (k := k) (es := es) (t := t) rfl h1 h2 h3 h4
  obtain ⟨-, -, -, -, -, hans, -, htrace, -, -, htrans, -⟩ :=
    endTransport_keeps false (s.during t r v b p ws k (es ++ s.trace))
  obtain ⟨he, hx, -, -, -, hlast, hacc, hany⟩ := endTransport_reports false (s.during t r v b p ws k (es ++ s.trace))
  refine ⟨htrans, he, hx, hlast, hacc, by simpa using hany, hans, htrace, fun hp => ?_⟩
  have hproto : z.pos.proto = none := by
    obtain ⟨-, -, -, -, -, -, hpos, -⟩ := hframe
    rw [hpos, hp]
  have hret : returnToProto z = z := by simp [returnToProto, hproto]
  rwa [hz, hret]

/-- Only the error indicator 0 lets a send go on (R182). -/
theorem sendAborts_of_ne_zero {e : BitVec 3} (h : e ≠ 0) : sendAborts e = true :=
  bne_iff_ne.mpr h

/-! ### Runs that abort -/

section
variable {r : Scratch} {v : PortStatus} {b : Byte} {p : BusPort} {ws : List Word} {k : Nat} {es : List Event}
variable (hc : configOk s) (hh : s.hostIn = []) (hf : s.pos.leaf = none)

include hc hh hf

/-- The first byte of a send of more than one, up to its error sample. -/
theorem run_first_byte {w0 w1 e1 : Word} (hn : 1 < r.n) (h0 : idleAnswer s.cfg w0) (h1 : idleAnswer s.cfg w1) :
    runFor 6 (s.during (some .sW0) r v b p (w0 :: w1 :: e1 :: ws) k es) =
      .next (s.during (some (if sendAborts (errorOf s.cfg e1) then .sAB else .sD)) { r with i := 1, e := errorOf s.cfg e1 }
        (statusOf s.cfg.layout e1) b ⟨s.cfg.devAddr, .send, r.tx0⟩ ws (k + 3)
        ([evRS s.cfg e1, evRS s.cfg w1, evWC s.cfg .send 0b0011 r.tx0, evWD s.cfg r.tx0, evWA s.cfg .send,
          evRS s.cfg w0] ++ es)) := by
  rw [runFor_step (during_sW0 hc hh hf h0), runFor_step (during_sSA hc hh hf), runFor_step (during_sD0 hc hh hf),
    runFor_step (during_sC0_more hc hh hf (BitVec.ne_of_lt hn).symm rfl rfl), runFor_step (during_sW1 hc hh hf h1), if_pos hn,
    runFor_step (during_sE hc hh hf)]
  rfl

/-- The second byte of three, from a clean first byte up to its error sample. -/
theorem run_middle_byte {w2 e2 : Word} {x : Byte} (hn : r.n = 3) (hi : r.i = 1) (h2 : idleAnswer s.cfg w2) :
    runFor 4 (s.during (some .sD) r v b ⟨s.cfg.devAddr, .send, x⟩ (w2 :: e2 :: ws) k es) =
      .next (s.during (some (if sendAborts (errorOf s.cfg e2) then .sAB else .sD)) { r with i := 2, e := errorOf s.cfg e2 }
        (statusOf s.cfg.layout e2) b ⟨s.cfg.devAddr, .send, r.tx1⟩ ws (k + 2)
        ([evRS s.cfg e2, evRS s.cfg w2, evWC s.cfg .send 0b0001 r.tx1, evWD s.cfg r.tx1] ++ es)) := by
  have htx : txAt r r.i = some r.tx1 := by rw [hi]; rfl
  have hmid : r.i ≠ r.n - 1 := by rw [hi, hn]; decide
  have hnext : r.i + 1 < r.n := by rw [hi, hn]; decide
  rw [runFor_step (during_sD hc hh hf htx), runFor_step (during_sC_mid hc hh hf hmid rfl rfl),
    runFor_step (during_sW hc hh hf h2), if_pos hnext, runFor_step (during_sE hc hh hf), hi]
  rfl

/-- An error after the first byte stops a send of two or three at once. -/
theorem run_abort_first {w0 w1 e1 : Word} (hn : 1 < r.n) (h0 : idleAnswer s.cfg w0) (h1 : idleAnswer s.cfg w1)
    (he1 : errorOf s.cfg e1 ≠ 0) :
    runFor 7 (s.during (some .sW0) r v b p (w0 :: w1 :: e1 :: ws) k es) =
      .next (endTransport false (s.during (some .sAB) { r with i := 1, e := errorOf s.cfg e1 } (statusOf s.cfg.layout e1) b
        ⟨s.cfg.devAddr, .send, r.tx0⟩ ws (k + 3)
        ([evWC s.cfg .send 0b0100 r.tx0, evRS s.cfg e1, evRS s.cfg w1, evWC s.cfg .send 0b0011 r.tx0, evWD s.cfg r.tx0,
          evWA s.cfg .send, evRS s.cfg w0] ++ es))) := by
  rw [runFor_add (a := 6) (b := 1) (run_first_byte hc hh hf hn h0 h1), if_pos (sendAborts_of_ne_zero he1),
    runFor_step (k := 0) (during_sAB hc hh hf rfl rfl)]
  rfl

/-- An error after the second byte of three stops the send at once. -/
theorem run_abort_second {w0 w1 e1 w2 e2 : Word} (hn : r.n = 3) (h0 : idleAnswer s.cfg w0) (h1 : idleAnswer s.cfg w1)
    (h2 : idleAnswer s.cfg w2) (he1 : errorOf s.cfg e1 = 0) (he2 : errorOf s.cfg e2 ≠ 0) :
    runFor 11 (s.during (some .sW0) r v b p (w0 :: w1 :: e1 :: w2 :: e2 :: ws) k es) =
      .next (endTransport false (s.during (some .sAB) { r with i := 2, e := errorOf s.cfg e2 } (statusOf s.cfg.layout e2) b
        ⟨s.cfg.devAddr, .send, r.tx1⟩ ws (k + 5)
        ([evWC s.cfg .send 0b0100 r.tx1, evRS s.cfg e2, evRS s.cfg w2, evWC s.cfg .send 0b0001 r.tx1, evWD s.cfg r.tx1,
          evRS s.cfg e1, evRS s.cfg w1, evWC s.cfg .send 0b0011 r.tx0, evWD s.cfg r.tx0, evWA s.cfg .send,
          evRS s.cfg w0] ++ es))) := by
  have hlt : 1 < r.n := by rw [hn]; decide
  rw [runFor_add (a := 6) (b := 5) (run_first_byte hc hh hf hlt h0 h1), he1, if_neg (by decide),
    runFor_add (a := 4) (b := 1) (run_middle_byte (r := { r with i := 1, e := 0 }) hc hh hf hn rfl h2),
    if_pos (sendAborts_of_ne_zero he2), runFor_step (k := 0) (during_sAB hc hh hf rfl rfl)]
  rfl

end

/-! ### The obligations -/

/-- A send is entered at S_W0 with its operands loaded and all else as it was. -/
theorem enterSend_eq_during {r : Scratch} {ws : List Word} (ha : s.answers = ws) :
    enterSend (s.setScr r) = s.during (some .sW0) r s.st s.rd s.port ws s.draws s.trace := by
  rw [← ha]
  rfl

/-- Settles O30: the run of a three-byte send without an error before its last byte, and its end. -/
theorem send3Completes : Obligations.Send3Completes := by
  intro s b0 b1 b2 w0 w1 e1 w2 e2 w3 ef rest hc hh hf ha h0 h1 h2 h3 he1 he2
  have hrun : runFor 14 (enterSend (loadSend3 b0 b1 b2 s)) = _ :=
    (congrArg (runFor 14) (enterSend_eq_during ha)).trans (run_send3 hc hh hf rfl h0 h1 h2 h3 he1 he2)
  exact ⟨_, _, rfl, rfl, hrun, sendEnded_endTransport rfl rfl rfl rfl⟩

/-- A send of two or three bytes loads its first byte and a count above one. -/
theorem exec_send_more {t : State} {i : Instr} {b0 b1 b2 : Byte} (hi : i = .send2 b0 b1 ∨ i = .send3 b0 b1 b2)
    (h : exec i s = .next t) :
    ∃ c d n, (1 : BitVec 2) < n ∧ t = enterSend (s.setScr { s.scr with tx0 := b0, tx1 := c, tx2 := d, n := n }) := by
  obtain rfl | rfl := hi
  · exact ⟨b1, s.scr.tx2, 2, by decide, (Host.Outcome.next.inj h).symm⟩
  · exact ⟨b1, b2, 3, by decide, (Host.Outcome.next.inj h).symm⟩

/-- Settles O31: the first byte up to its sample, the stop, and the end of the send. -/
theorem sendAbortsAfterTheFirstByte : Obligations.SendAbortsAfterTheFirstByte := by
  intro s t i b0 b1 b2 w0 w1 e1 rest hc hh hf ha h0 h1 he1 hi ht
  obtain ⟨c, d, n, hn, rfl⟩ := exec_send_more hi ht
  have hrun := (congrArg (runFor 7) (enterSend_eq_during ha)).trans
    (run_abort_first (r := { s.scr with tx0 := b0, tx1 := c, tx2 := d, n := n }) hc hh hf hn h0 h1 he1)
  exact ⟨_, hrun, sendEnded_endTransport rfl rfl rfl rfl⟩

/-- Settles O32: the first byte, the second up to its sample, the stop, and the end of the send. -/
theorem sendAbortsAfterTheSecondByte : Obligations.SendAbortsAfterTheSecondByte := by
  intro s t b0 b1 b2 w0 w1 e1 w2 e2 rest hc hh hf ha h0 h1 h2 he1 he2 ht
  obtain rfl := Host.Outcome.next.inj ht
  have hrun : runFor 11 (enterSend (loadSend3 b0 b1 b2 s)) = _ :=
    (congrArg (runFor 11) (enterSend_eq_during ha)).trans (run_abort_second hc hh hf rfl h0 h1 h2 he1 he2)
  exact ⟨_, hrun, sendEnded_endTransport rfl rfl rfl rfl⟩

end Sys2Proof.Machine
end

section
/-! PROOFS. WAIT_IDLE and WAIT_DONE while the answers say busy, and the pass that ends WAIT_IDLE (41_transport R180;
43_acquisition R264; 60_exceptions R306). -/
namespace Sys2Proof.Machine

variable {s t : State}

/-! ### One pass -/

/-- Settles O24: a pass is RD_STATUS, and its BUSY decides whether the loop goes on (R180). -/
theorem waitIdlePassReadsTheStatus : Obligations.WaitIdlePassReadsTheStatus :=
  fun _ => rfl

/-! ### The error indicator once an operation is done -/

theorem advanceProto_e (l : ProtoLabel) (s : State) : (advanceProto l s).scr.e = s.scr.e := by
  cases l <;> simp [advanceProto, returnToHost_keeps]

theorem endAttempt_e (s : State) : (endAttempt s).scr.e = s.scr.e := by
  unfold endAttempt
  split
  · split
    · simp [endTransport_reports]
    · rfl
  · simp [endTransport_reports]

theorem advanceTrans_e (l : TransLabel) (s : State) : (advanceTrans l s).scr.e = s.scr.e := by
  cases l <;> simp [advanceTrans, endTransport_reports, endAttempt_e]

/-- Only ERR_SAMPLE writes `E` (R181): the position's advance does not. -/
theorem afterOp_e (p : Pos) (s : State) : (afterOp p s).scr.e = s.scr.e := by
  unfold afterOp
  split
  · rfl
  · split
    · exact advanceTrans_e _ s
    · split
      · rfl
      · split
        · exact advanceProto_e _ s
        · split
          · rfl
          · split
            · next l _ => cases l <;> rfl
            · rfl

/-! ### A wait that goes on, and one that ends -/

/-- An operation whose loop has not met its exit is the whole step (R306). -/
theorem step_of_spin {i : Instr} (hc : configOk s) (hh : s.hostIn = []) (hp : pick s = .op i s) (he : exec i s = .next t)
    (hl : t.pos.leaf ≠ none) : step s = .next t := by
  rw [step_of_configOk hc, boundary_nil hh, seqStep_op hp, he, carryOn_next, afterOp_of_spin hl]

/-- The pass of WAIT_IDLE that reads not busy ends the wait; `E` stays whatever the position goes on to (R180). -/
theorem step_waitIdle_ends {w : Word} {rest : List Word} (hc : configOk s) (hh : s.hostIn = [])
    (hp : pick s = .op .waitIdle s) (ha : s.answers = w :: rest) (hw : idleAnswer s.cfg w) :
    ∃ t, step s = .next t ∧ t.pos.leaf = none ∧ t.answers = rest ∧ t.scr.e = s.scr.e ∧
      t.trace = evRS s.cfg w :: s.trace := by
  have hn : nextAnswer s = w := by simp [nextAnswer, ha]
  have hi : (statusOf s.cfg.layout w).busy = false := hw
  obtain ⟨-, -, -, -, -, hans, -, htrace, -⟩ := afterOp_keeps s.pos (waitIdlePass s)
  refine ⟨afterOp s.pos (waitIdlePass s), ?_, afterOp_leaf _ (by simp [hn, hi]), ?_, afterOp_e _ _, ?_⟩
  · rw [step_of_configOk hc, boundary_nil hh, seqStep_op hp]
    rfl
  · rw [hans, waitIdlePass_answers, ha, List.tail_cons]
  · rw [htrace, waitIdlePass_trace, hn, evRS]

/-- Settles O25: each busy answer is a step that leaves WAIT_IDLE picked, and the first idle one a step that ends it. -/
theorem waitIdleEndsAtTheFirstIdleAnswer : Obligations.WaitIdleEndsAtTheFirstIdleAnswer := by
  intro s busy rest hc hh hp ha hb
  obtain ⟨t, hrun, hpick, hct, hht, hans, hscr, hstat, htrace⟩ : ∃ t, runFor busy.length s = .next t ∧
      pick t = .op .waitIdle t ∧ t.cfg = s.cfg ∧ t.hostIn = [] ∧ t.answers = rest ∧ t.scr = s.scr ∧ t.stat = s.stat ∧
      t.trace = (busy.map (evRS s.cfg)).reverse ++ s.trace := by
    cases busy with
    | nil => exact ⟨s, rfl, hp, rfl, hh, ha, rfl, rfl, rfl⟩
    | cons x xs =>
      obtain ⟨v, hrun⟩ := run_spin (x :: xs) s rest hc hh hp ha hb
      exact ⟨_, hrun, rfl, rfl, hh, rfl, rfl, rfl, rfl⟩
  refine ⟨rfl, ⟨t, hrun, hpick, hans, hscr, hstat, htrace⟩, fun w tail hr hw => ?_⟩
  obtain ⟨u, hs, hleaf, hua, hue, hut⟩ := step_waitIdle_ends (s := t) (by unfold configOk; rwa [hct]) hht hpick
    (hans.trans hr) (by rwa [hct])
  refine ⟨u, ?_, hleaf, hua, ?_, ?_⟩
  · rw [runFor_add hrun, runFor_step (k := 0) hs, runFor_zero]
  · rw [hue, hscr]
  · rw [hut, htrace, hct]

/-- Settles O26: the pass of either wait that reads busy moves the position to its spin and nothing further. -/
theorem busyAnswersKeepTheWait : Obligations.BusyAnswersKeepTheWait := by
  intro s hc hh
  refine ⟨fun hp hb => ?_, fun hp hb => ?_⟩
  · have hbusy : (statusOf s.cfg.layout (nextAnswer s)).busy = true := by simpa [idleAnswer] using hb
    exact ⟨waitIdlePass s, step_of_spin hc hh hp rfl (by simp [hbusy]), by simp [pick, hbusy], hh, rfl, rfl, rfl, rfl,
      by simp [hbusy]⟩
  · exact ⟨waitDonePass s, step_of_spin hc hh hp rfl (by simp [hb]), by simp [pick, hb], hh, rfl, rfl, rfl,
      by simp [hb], by simp [hb]⟩

end Sys2Proof.Machine
end

section
/-! PROOFS. SEND1 whose waits spin, SEND2 without an error, and the attempts of RECV2 counted (41_transport R183, R184, R187). -/
namespace Sys2Proof.Machine

variable {s : State}

/-! ### SEND1 and SEND2 -/

section
variable {r : Scratch} {v : PortStatus} {b : Byte} {p : BusPort} {ws : List Word} {k : Nat} {es : List Event}
variable (hc : configOk s) (hh : s.hostIn = []) (hf : s.pos.leaf = none)

include hc hh hf

/-- The second wait of a one-byte send: busy answers, then the one that ends it, and no byte is left to send (R182). -/
theorem run_wait_only_byte {busy : List Word} {w : Word} (hn : r.n = 1) (hb : ∀ x ∈ busy, ¬ idleAnswer s.cfg x)
    (hw : idleAnswer s.cfg w) :
    runFor (busy.length + 1) (s.during (some .sW1) r v b p (busy ++ w :: ws) k es) =
      .next (s.during (some .sEF) { r with i := 1 } (statusOf s.cfg.layout w) b p ws (k + busy.length + 1)
        (evRS s.cfg w :: ((busy.map (evRS s.cfg)).reverse ++ es))) := by
  have hlast : (if (1 : BitVec 2) < r.n then TransLabel.sE else .sEF) = .sEF := by rw [hn]; rfl
  rw [run_wait (s := s.during (some .sW1) r v b p (busy ++ w :: ws) k es) rfl hc hh hf rfl rfl hb hw, ← hlast]
  rfl

/-- A one-byte send whose two waits spin through `k0` and `k1`. -/
theorem run_send1_spun {k0 k1 : List Word} {w0 w1 ef : Word} (hn : r.n = 1) (hb : ∀ x ∈ k0 ++ k1, ¬ idleAnswer s.cfg x)
    (h0 : idleAnswer s.cfg w0) (h1 : idleAnswer s.cfg w1) :
    runFor (k0.length + k1.length + 6) (s.during (some .sW0) r v b p (k0 ++ w0 :: (k1 ++ w1 :: ef :: ws)) k es) =
      .next (endTransport false (s.during (some .sEF) { r with i := 1, e := errorOf s.cfg ef } (statusOf s.cfg.layout ef) b
        ⟨s.cfg.devAddr, .send, r.tx0⟩ ws (k + k0.length + 1 + k1.length + 1 + 1)
        ([evRS s.cfg ef, evRS s.cfg w1] ++ (k1.map (evRS s.cfg)).reverse ++
          [evWC s.cfg .send 0b0111 r.tx0, evWD s.cfg r.tx0, evWA s.cfg .send, evRS s.cfg w0] ++
          (k0.map (evRS s.cfg)).reverse ++ es))) := by
  rw [show k0.length + k1.length + 6 = (k0.length + 1) + ((k1.length + 1 + 1) + 1 + 1 + 1) by omega,
    runFor_add (run_wait_during rfl (fun _ => rfl) hc hh hf (fun x hx => hb x (by simp [hx])) h0),
    runFor_step (during_sSA hc hh hf), runFor_step (during_sD0 hc hh hf),
    runFor_step (during_sC0_first hc hh hf hn rfl rfl), show k1.length + 2 = k1.length + 1 + 1 from rfl,
    runFor_add (run_wait_only_byte hc hh hf hn (fun x hx => hb x (by simp [hx])) h1),
    runFor_step (k := 0) (during_sEF hc hh hf), runFor_zero]
  simp

/-- A two-byte send without an error after its first byte. -/
theorem run_send2 {w0 w1 e1 w2 ef : Word} (hn : r.n = 2) (h0 : idleAnswer s.cfg w0) (h1 : idleAnswer s.cfg w1)
    (h2 : idleAnswer s.cfg w2) (he1 : errorOf s.cfg e1 = 0) :
    runFor 10 (s.during (some .sW0) r v b p (w0 :: w1 :: e1 :: w2 :: ef :: ws) k es) =
      .next (endTransport false (s.during (some .sEF) { r with i := 2, e := errorOf s.cfg ef } (statusOf s.cfg.layout ef) b
        ⟨s.cfg.devAddr, .send, r.tx1⟩ ws (k + 5)
        ([evRS s.cfg ef, evRS s.cfg w2, evWC s.cfg .send 0b0101 r.tx1, evWD s.cfg r.tx1, evRS s.cfg e1, evRS s.cfg w1,
          evWC s.cfg .send 0b0011 r.tx0, evWD s.cfg r.tx0, evWA s.cfg .send, evRS s.cfg w0] ++ es))) := by
  have hmore : 1 < r.n := by rw [hn]; decide
  have hlast : 1 = r.n - 1 := by rw [hn]; rfl
  have hend : ¬ (1 : BitVec 2) + 1 < r.n := by rw [hn]; decide
  rw [runFor_add (a := 6) (b := 4) (run_first_byte hc hh hf hmore h0 h1), he1, if_neg (by decide),
    runFor_step (during_sD hc hh hf (x := r.tx1) rfl), runFor_step (during_sC_last hc hh hf hlast rfl rfl),
    runFor_step (during_sW hc hh hf h2), if_neg hend, runFor_step (k := 0) (during_sEF hc hh hf)]
  rfl

end

theorem endTransport_leaf (x : Bool) (h : s.pos.leaf = none) : (endTransport x s).pos.leaf = none := by
  simp [endTransport_keeps, h]

/-- Settles O28: the run of a one-byte send through its two waits, and its end. -/
theorem send1Completes : Obligations.Send1Completes := by
  intro s b0 k0 k1 w0 w1 ef rest hc hh hf ha hb h0 h1
  have hrun := (congrArg (runFor (k0.length + k1.length + 6)) (enterSend_eq_during ha)).trans
    (run_send1_spun (r := { s.scr with tx0 := b0, n := 1 }) hc hh hf rfl hb h0 h1)
  exact ⟨rfl, _, _, rfl, rfl, hrun, endTransport_leaf false hf, sendEnded_endTransport rfl rfl rfl rfl⟩

/-- Settles O29: the run of a two-byte send without an error after its first byte, and its end. -/
theorem send2Completes : Obligations.Send2Completes := by
  intro s b0 b1 w0 w1 e1 w2 ef rest hc hh hf ha h0 h1 h2 he1
  have hrun := (congrArg (runFor 10) (enterSend_eq_during ha)).trans
    (run_send2 (r := { s.scr with tx0 := b0, tx1 := b1, n := 2 }) hc hh hf rfl h0 h1 h2 he1)
  exact ⟨_, _, rfl, rfl, hrun, sendEnded_endTransport rfl rfl rfl rfl⟩

/-! ### The attempts of RECV2 -/

theorem attemptAnswers_append (as bs : List Attempt) :
    attemptAnswers (as ++ bs) = attemptAnswers as ++ attemptAnswers bs := by
  induction as with
  | nil => rfl
  | cons a as ih => rw [List.cons_append, attemptAnswers, ih, ← List.append_assoc, attemptAnswers]

/-- The events of an attempt are nine (R186). -/
theorem length_attempts_events (c : Params) (b : Byte) (as : List Attempt) :
    (as.flatMap (Attempt.events c b)).length = 9 * as.length := by
  simp [List.length_flatMap, Attempt.events, Nat.mul_comm]

/-- An attempt that does not fail, or is the fifth, ends RECV2 (R187). -/
theorem endAttempt_ends (h : receiveRetries s.scr.e = true → s.scr.att = retryMax) :
    (endAttempt s).pos.trans = none ∧ (endAttempt s).scr.att = s.scr.att := by
  cases hr : receiveRetries s.scr.e with
  | true => simp [endAttempt_exhausts hr (h hr), endTransport_keeps, endTransport_reports]
  | false => simp [endAttempt_succeeds hr, endTransport_keeps, endTransport_reports]

/-- The sample of an attempt has neither ADR_NACK nor BUS_ERR (R187). -/
def Attempt.good (c : Params) (a : Attempt) : Bool := !receiveRetries (errorOf c a.we)

/-- Of five attempts, those RECV2 runs: failed ones, and then the first good one or the fifth (R187). -/
theorem split_at_last_attempt {c : Params} {tries : List Attempt} (hlen : tries.length = 5) :
    ∃ bad a later, tries = bad ++ a :: later ∧ bad.length + 1 = min (tries.findIdx (Attempt.good c) + 1) 5 ∧
      (∀ x ∈ bad, receiveRetries (errorOf c x.we) = true) ∧
      (receiveRetries (errorOf c a.we) = true → bad.length + 1 = 5) := by
  obtain ⟨j, hj⟩ : ∃ j, j = min (tries.findIdx (Attempt.good c)) 4 := ⟨_, rfl⟩
  have hlt : j < tries.length := by omega
  have hbad : (tries.take j).length = j := List.length_take_of_le hlt.le
  refine ⟨tries.take j, tries[j], tries.drop (j + 1), by simp, by omega, fun x hx => ?_, fun hr => ?_⟩
  · obtain ⟨i, hi, rfl⟩ := List.mem_take_iff_getElem.mp hx
    simpa [Attempt.good] using List.not_of_lt_findIdx (show i < tries.findIdx (Attempt.good c) by omega)
  · by_contra hne
    obtain rfl : tries.findIdx (Attempt.good c) = j := by omega
    have hgood : Attempt.good c tries[tries.findIdx (Attempt.good c)] = true := List.findIdx_getElem
    simp [Attempt.good, hr] at hgood

/-- Settles O35: the attempts before the first good one fail, and the one after them, good or the fifth, ends RECV2. -/
theorem retryBoundCountsAttempts : Obligations.RetryBoundCountsAttempts := by
  intro s tries rest hc hh hf hlen hi ha
  obtain ⟨bad, a, later, rfl, hn, hbad, hlast⟩ := split_at_last_attempt (c := s.cfg) hlen
  have hans : s.answers = attemptAnswers bad ++ a.answers ++ (attemptAnswers later ++ rest) := by
    simpa [attemptAnswers_append, attemptAnswers] using ha
  obtain ⟨z, hrun, -, -, hze, hzatt, hzans, hztrace⟩ := run_recv2 hc hh hf (by omega) hans
    (fun x hx => hi x (by simp [hx])) (hi a (by simp)) hbad
  obtain ⟨htrans, hatt⟩ := endAttempt_ends (s := z) fun hr =>
    BitVec.eq_of_toNat_eq (hzatt.trans (hlast (by rwa [← hze])))
  obtain ⟨-, -, -, -, -, hans', -, htrace', -⟩ := endAttempt_keeps z
  refine ⟨_, _, bad.length + 1, hn, by omega, by omega, rfl, hrun, htrans, ?_, ?_, ?_⟩
  · rw [hatt, hzatt]
  · rw [htrace', hztrace, List.length_append, List.length_append, length_attempts_events, List.length_reverse]
    simp [Attempt.events]
    omega
  · rw [hans', hzans]
    simp

end Sys2Proof.Machine
end

section
/-! PROOFS. The latch toggle, the order of the protocol's labels, and BEGIN_CONV as a chain of whole primitives
(42_sensor_protocol R225, R227, R230). -/
namespace Sys2Proof.Machine

variable {s y z : State} {l : ProtoLabel} {e : BitVec 3} {ws : List Word} {n : Nat} {ds : List Word} {vs : List (BitVec 5)}

/-! ### The latch bit -/

/-- Setting the latch bit changes nothing exactly when it is set already. -/
theorem latchSet_eq_self_iff (c : Half) : latchSet c = c ↔ c.getLsbD 4 = true := by
  refine ⟨fun h => ?_, fun h => ?_⟩
  · rw [← h, latchSet, BitVec.getLsbD_or]
    exact Bool.or_true _
  · have hm : latchMask = BitVec.twoPow 16 4 := by decide
    ext i hi
    rw [latchSet, hm, BitVec.getElem_or, BitVec.getElem_twoPow]
    by_cases h4 : i = 4
    · subst h4
      simpa [← BitVec.getLsbD_eq_getElem] using h
    · simp [h4]

/-- The two words written back differ in the latch bit alone. -/
theorem latchCleared_xor_latchSet (c : Half) : latchCleared c ^^^ latchSet c = latchMask := by
  have hbit : ∀ x m : Bool, ((x && !m) ^^ (x || m)) = m := by decide
  ext i hi
  rw [latchCleared, latchSet, BitVec.getElem_xor, BitVec.getElem_and, BitVec.getElem_or, BitVec.getElem_not]
  exact hbit _ _

/-- Settles O39: both are given by the mask of R222, and the laws follow bit by bit. -/
theorem latchToggleLaws : Obligations.LatchToggleLaws :=
  fun c => ⟨rfl, rfl, latchSet_eq_self_iff c, latchCleared_xor_latchSet c⟩

/-! ### The order of the labels -/

/-- Settles O42: END_PRIMITIVE leaves the protocol label, and the label's own end moves to the next one whatever `E` and `X`
are (R227). -/
theorem protocolOrderIgnoresErrors : Obligations.ProtocolOrderIgnoresErrors := by
  intro s x l next hl hnext
  rw [endTransport_at_proto x hl]
  simp only [List.mem_cons, Prod.mk.injEq, List.not_mem_nil, or_false] at hnext
  obtain ⟨rfl, rfl⟩ | ⟨rfl, rfl⟩ | ⟨rfl, rfl⟩ | ⟨rfl, rfl⟩ | ⟨rfl, rfl⟩ | ⟨rfl, rfl⟩ | ⟨rfl, rfl⟩ := hnext
  all_goals rfl

/-! ### BEGIN_CONV -/

/-- The answers of BEGIN_CONV with idle waits, no error in either send, and a receive whose first attempt succeeds. -/
structure CleanConversion (g : Params) (a b : List Word) (r : Attempt) : Prop where
  lowLimit : a.length = 7
  config : b.length = 7
  clean : ∀ w ∈ a ++ b, cleanAnswer g w
  idle : r.idle g
  good : receiveRetries (errorOf g r.we) = false

/-- The bytes BEGIN_CONV writes, newest first. -/
def conversionSends (g : Params) : List Byte :=
  [loByte g.configWord, hiByte g.configWord, ptrConfig, loByte g.lowLimitWord, hiByte g.lowLimitWord, ptrLowLimit]

/-- The bus command words BEGIN_CONV launches, newest first. -/
def conversionLaunches : List (BitVec 5) := [0x15, 0x1B, 0x05, 0x01, 0x03, 0x05, 0x01, 0x03]

theorem exec_bCF {g : Params} (hg : y.cfg = g) :
    exec (protoOp .bCF y) y = exec (.send3 ptrConfig (hiByte g.configWord) (loByte g.configWord)) y := by
  rw [← hg]
  rfl

/-- BEGIN_CONV from B_LL to the return, with clean answers: three calls. -/
theorem run_beginConv {a b : List Word} {r : Attempt} {rest : List Word} (hs : ProtoReady s .bLL)
    (hw : CleanConversion s.cfg a b r) (hans : s.answers = a ++ (b ++ (r.answers ++ rest))) :
    ∃ z, runFor 40 s = .next (returnToHost z) ∧
      Ran (s.atProto none) (errorOf s.cfg r.we) rest 37 ((conversionSends s.cfg).map (dataWord s.cfg.layout))
        conversionLaunches z := by
  obtain ⟨hla, hlb, hclean, hri, hgood⟩ := hw
  obtain ⟨hwa, hwb⟩ := List.forall_mem_append.mp hclean
  obtain ⟨z1, run1, h1⟩ := run_clean_send3 hs rfl hla hans hwa
  have h1 : Ran (s.atProto (some .bCF)) 0 _ _ _ _ _ := h1.atProto _
  obtain ⟨z2, run2, h2⟩ := h1.then_send3 (hs.next rfl rfl rfl) (exec_bCF h1.cfg) hlb hwb
  have h2 : Ran (s.atProto (some .bCLR)) 0 _ _ _ _ _ := h2.atProto _
  obtain ⟨z3, run3, h3, -⟩ := h2.then_recv2 (hs.next rfl rfl rfl) rfl hri rfl hgood
  refine ⟨z3.atProto none, ?_, h3.atProto none⟩
  exact (runFor_add (b := 25) run1).trans <| (runFor_add (b := 10) run2).trans run3

/-- Settles O40: the run of BEGIN_CONV, which then returns to its caller, and what its events show. -/
theorem beginConvCompletes : Obligations.BeginConvCompletes := by
  intro s a b r rest hc hh hl ht hla hlb hw hri hgood hans
  obtain ⟨z, hrun, es, ⟨hframe, -, -, hlast, -, -, hzans, htrace⟩, hlen, hdata, hbcw⟩ :=
    run_beginConv (s := s.atProto (some .bLL)) ⟨hc, hh, hl, ht, rfl⟩ ⟨hla, hlb, hw, hri, hgood⟩ (by simpa using hans)
  obtain ⟨-, hacq, hraw, hres, -, -, hpos, hcw, hrr, hmag, hp, hstat⟩ := hframe
  obtain ⟨-, hscr, hstat', hraw', hres', -, -, -, -, hans', -, htrace', -, -, hproto, htrans, hleaf, -⟩ :=
    returnToHost_keeps z
  have hcaller : s.pos.host = none → (returnToHost z).acq = s.acq ∧ (returnToHost z).pos.host = none := fun hhost => by
    have hz : z.pos.host = none := (congrArg Pos.host hpos).trans hhost
    rw [show returnToHost z = z by simp [returnToHost, hz]]
    exact ⟨hacq, hz⟩
  rw [← hscr] at hcw hrr hmag hp
  refine ⟨_, _, rfl, rfl, hrun, hleaf.trans ((congrArg Pos.leaf hpos).trans hl), htrans.trans (congrArg Pos.trans hpos),
    hproto.trans (congrArg Pos.proto hpos), hcaller, hcw, hrr, hmag, hp, hraw'.trans hraw, hres'.trans hres, ?_, ?_,
    hans'.trans hzans, ?_⟩
  · rw [hstat', hstat]
    rfl
  · rw [hstat', hlast]
    rfl
  · rw [htrace', htrace, List.length_append, hlen, List.filterMap_append, hdata, List.filterMap_append, hbcw]
    exact ⟨Nat.add_comm _ _, rfl, rfl⟩

end Sys2Proof.Machine
end

section
/-! PROOFS. The host commands that run to their completion without an error: START and POLL_END from Idle, POLL_END that reads, and
BLOCKING_READ (43_acquisition R261 to R265). -/
namespace Sys2Proof.Machine

variable {s w y z : State} {l m : HostLabel} {ws ws' : List Word} {n n' : Nat} {ds ds' : List Word} {vs vs' : List (BitVec 5)}

/-! ### A command on its way, without an error -/

/-- `z` is reached from `s` with no error reported: only the primitives' own registers and the bus-master fields may differ, but
for the answers taken, `ws` being left, and the events, of which `n`, `ds` and `vs` say what they show. -/
structure Reached (s : State) (ws : List Word) (n : Nat) (ds : List Word) (vs : List (BitVec 5)) (z : State) : Prop where
  cfg : z.cfg = s.cfg
  acq : z.acq = s.acq
  pos : z.pos = s.pos
  stat : z.stat = s.stat
  raw : z.raw = s.raw
  result : z.result = s.result
  hostIn : z.hostIn = s.hostIn
  slot : z.slot = s.slot
  cfgWord : z.scr.cfgWord = s.scr.cfgWord
  rr : z.scr.rr = s.scr.rr
  mag : z.scr.mag = s.scr.mag
  p : z.scr.p = s.scr.p
  answers : z.answers = ws
  events : ∃ es, z.trace = es ++ s.trace ∧ Shows es n ds vs

theorem Reached.refl (ha : s.answers = ws) : Reached s ws 0 [] [] s :=
  ⟨rfl, rfl, rfl, rfl, rfl, rfl, rfl, rfl, rfl, rfl, rfl, rfl, ha, [], rfl, rfl, rfl, rfl⟩

theorem Reached.trans (hy : Reached s ws n ds vs y) (hz : Reached y ws' n' ds' vs' z) :
    Reached s ws' (n' + n) (ds' ++ ds) (vs' ++ vs) z := by
  obtain ⟨es, htrace, hes⟩ := hy.events
  obtain ⟨es', htrace', hes'⟩ := hz.events
  exact ⟨hz.cfg.trans hy.cfg, hz.acq.trans hy.acq, hz.pos.trans hy.pos, hz.stat.trans hy.stat, hz.raw.trans hy.raw,
    hz.result.trans hy.result, hz.hostIn.trans hy.hostIn, hz.slot.trans hy.slot, hz.cfgWord.trans hy.cfgWord,
    hz.rr.trans hy.rr, hz.mag.trans hy.mag, hz.p.trans hy.p, hz.answers, es' ++ es,
    by rw [htrace', htrace, List.append_assoc], hes'.append hes⟩

/-- Whole primitives that reported no error leave CORE_STATUS as it was, if no error stood in LAST_ERR. -/
theorem Ran.reached (h : Ran s 0 ws n ds vs z) (ht : s.pos.trans = none) (hl : s.stat.lastErr = 0) :
    Reached s ws n ds vs z := by
  obtain ⟨es, ⟨⟨hcfg, hacq, hraw, hres, hin, hslot, hpos, hcw, hrr, hmag, hp, hstat⟩, -, -, hlast, hacc, hany, hans, htrace⟩,
    hes⟩ := h
  refine ⟨hcfg, hacq, ?_, ?_, hraw, hres, hin, hslot, hcw, hrr, hmag, hp, hans, es, htrace, hes⟩
  · rw [hpos, ← ht]
  · have hacc : z.stat.accErr = s.stat.accErr := by simpa using hacc
    rw [hstat, hlast, hacc, hany, ← hl]

/-! ### What the host level does to both ends -/

theorem Reached.setAcq (h : Reached s ws n ds vs z) (a : Acq) : Reached (s.setAcq a) ws n ds vs (z.setAcq a) :=
  { h with acq := rfl }

theorem Reached.atHost (h : Reached s ws n ds vs z) (m : Option HostLabel) :
    Reached (s.atHost m) ws n ds vs (z.atHost m) :=
  { h with pos := congrArg (fun p : Pos => { p with host := m }) h.pos }

/-- `s` once BEGIN_CONV has ended (R261 to R263). -/
def converted (s : State) (m : HostLabel) : State := (s.setAcq .measuring).atHost (some m)

/-- `s` once the pin was sampled done (R262, R264). -/
def pinDone (s : State) : State := (s.setScr { s.scr with p := !s.cfg.busyLevel }).atHost (some .read)

theorem Reached.pinDone (h : Reached s ws n ds vs z) : Reached (pinDone s) ws n ds vs (pinDone z) :=
  { h with
    pos := congrArg (fun p : Pos => { p with host := some .read }) h.pos
    p := congrArg (fun g : Params => !g.busyLevel) h.cfg }

/-- `s` once READ_RESULT has read `raw` and the configuration `c` (R262, R263; 42 R228). -/
def delivered (s : State) (raw c : Half) : State :=
  ((publish (readStage s none raw (magnitude raw) c)).setAcq .idle).atHost (some (.complete true))

theorem Reached.delivered (h : Reached s ws n ds vs z) (raw c : Half) :
    Reached (delivered s raw c) ws n ds vs (delivered z raw c) :=
  { h with
    acq := rfl
    pos := congrArg (fun p : Pos => { p with proto := none, host := some (.complete true) }) h.pos
    raw := rfl, result := rfl, cfgWord := rfl, rr := rfl, mag := rfl }

/-- `s` once COMPLETE has ended its command (R265), but for the response. -/
def closed (s : State) (ready : Bool) : State :=
  (s.setStat (completeFlags ready s.stat)).setPos { s.pos with curOp := none, host := none }

/-- COMPLETE adds its response, which writes nothing and launches nothing. -/
theorem Reached.complete (h : Reached s ws n ds vs z) (r : Bool) :
    Reached (closed s r) ws (n + 1) ds vs (complete r z) := by
  obtain ⟨es, htrace, hlen, hdata, hbcw⟩ := h.events
  refine { h with
    pos := congrArg (fun p : Pos => { p with curOp := none, host := none }) h.pos
    stat := congrArg (completeFlags r) h.stat
    events := ⟨.resp r z.result z.raw :: es, ?_, ?_, hdata, hbcw⟩ }
  · rw [complete_trace, htrace]
    rfl
  · rw [List.length_cons, hlen]

/-! ### One step at a host label -/

/-- The sequencer is about to perform the operation of the host label `l`, and the host does nothing. -/
structure HostReady (s : State) (l : HostLabel) : Prop where
  config : configOk s
  quiet : s.hostIn = []
  leaf : s.pos.leaf = none
  trans : s.pos.trans = none
  proto : s.pos.proto = none
  label : s.pos.host = some l

theorem HostReady.atHost (hs : HostReady s l) (hcfg : z.cfg = s.cfg) (hin : z.hostIn = s.hostIn)
    (hpos : z.pos = { s.pos with host := some m }) : HostReady z m := by
  refine ⟨?_, hin.trans hs.quiet, ?_, ?_, ?_, ?_⟩
  · rw [configOk, hcfg]
    exact hs.config
  all_goals rw [hpos]
  · exact hs.leaf
  · exact hs.trans
  · exact hs.proto

theorem Reached.ready (h : Reached s ws n ds vs z) (hs : HostReady s l) : HostReady z l :=
  hs.atHost h.cfg h.hostIn (by rw [h.pos, ← hs.label])

/-- At a label whose operation has labels of its own, the step enters them. -/
theorem HostReady.step_enters {i : Instr} {p : ProtoLabel} (hs : HostReady s l) (hp : hostPick l s = .op i s)
    (he : exec i s = .next (s.atProto (some p))) :
    step s = .next (s.atProto (some p)) ∧ ProtoReady (s.atProto (some p)) p := by
  have hk : pick s = .op i s := (pick_at_host hs.trans hs.proto hs.label (.inl hs.leaf)).trans hp
  refine ⟨?_, hs.config, hs.quiet, hs.leaf, hs.trans, rfl⟩
  rw [step_quiet hs.config (.inl ⟨hs.quiet, rfl⟩), seqStep_enters hk he hs.trans (.inr ⟨hs.proto, nofun⟩), he]

theorem HostReady.step_complete {r : Bool} (hs : HostReady s (.complete r)) : step s = .next (Machine.complete r s) := by
  rw [step_quiet hs.config (.inl ⟨hs.quiet, rfl⟩)]
  exact seqStep_complete (pick_at_host hs.trans hs.proto hs.label (.inl hs.leaf))

/-! ### The phases of a command -/

/-- BEGIN_CONV, called by a host command (R261 to R263): the call and the forty steps of its own. -/
theorem run_conversion {a b : List Word} {r : Attempt} {rest : List Word} (hs : HostReady s .begin)
    (hl : s.stat.lastErr = 0) (hm : m = if s.pos.curOp = some .blockingRead then .wait else .complete false)
    (hw : CleanConversion s.cfg a b r) (he : errorOf s.cfg r.we = 0) (ha : s.answers = a ++ (b ++ (r.answers ++ rest))) :
    ∃ z, runFor 41 s = .next z ∧
      Reached (converted s m) rest 37 ((conversionSends s.cfg).map (dataWord s.cfg.layout)) conversionLaunches z := by
  obtain ⟨hstep, hready⟩ := hs.step_enters (p := .bLL) rfl rfl
  obtain ⟨z, hrun, hz⟩ := run_beginConv hready hw ha
  have hself : (s.atProto (some .bLL)).atProto none = s := by
    rw [← hs.proto]
    rfl
  rw [hself, State.atProto_cfg, he] at hz
  have hz : Reached s _ _ _ _ z := hz.reached hs.trans hl
  have hhost : z.pos.host = some .begin := by rw [hz.pos, hs.label]
  have hreturn : returnToHost z = converted z m := by
    rw [returnToHost, hhost, hm, ← hz.pos]
    rfl
  refine ⟨converted z m, ?_, (hz.setAcq .measuring).atHost (some m)⟩
  rw [runFor_step hstep, hrun, hreturn]

/-- The answers of READ_RESULT with idle waits and no error. -/
structure CleanReading (g : Params) (a b : List Word) (r c : Attempt) (d e : List Word) : Prop where
  resultPointer : a.length = 3
  configPointer : b.length = 3
  latchClear : d.length = 7
  latchSet : e.length = 7
  clean : ∀ w ∈ a ++ b ++ d ++ e, cleanAnswer g w
  resultIdle : r.idle g
  resultClean : cleanAnswer g r.we
  configIdle : c.idle g
  configClean : cleanAnswer g c.we

/-- The bus command words READ_RESULT launches, newest first. -/
def readLaunches : List (BitVec 5) := [0x05, 0x01, 0x03, 0x05, 0x01, 0x03, 0x15, 0x1B, 0x07, 0x15, 0x1B, 0x07]

/-- READ_RESULT, called by a host command (R262, R263): the call and the sixty-five steps of its own. -/
theorem run_reading {a b d e : List Word} {r c : Attempt} {rest : List Word} (hs : HostReady s .read)
    (hl : s.stat.lastErr = 0) (hw : CleanReading s.cfg a b r c d e)
    (ha : s.answers = a ++ r.answers ++ b ++ c.answers ++ d ++ e ++ rest) :
    ∃ z, runFor 66 s = .next z ∧ Reached (delivered s (r.raw s.cfg) (c.raw s.cfg)) rest 58
      ((readSends (c.raw s.cfg)).map (dataWord s.cfg.layout)) readLaunches z := by
  obtain ⟨hla, hlb, hld, hle, hclean, hri, ⟨-, hre⟩, hci, -, hce⟩ := hw
  obtain ⟨hstep, hready⟩ := hs.step_enters (p := .tP0) rfl rfl
  obtain ⟨z, hrun, hz⟩ := run_readResult hready hla hlb hld hle hclean hri hre hci hce (by simpa using ha)
  have hz : Reached (publish (readStage s none (r.raw s.cfg) (magnitude (r.raw s.cfg)) (c.raw s.cfg))) _ _ _ _ z :=
    hz.reached hs.trans hl
  have hhost : z.pos.host = some .read := (congrArg Pos.host hz.pos).trans hs.label
  have hreturn : returnToHost z = (z.setAcq .idle).atHost (some (.complete true)) := by
    rw [returnToHost, hhost]
    rfl
  refine ⟨_, ?_, (hz.setAcq .idle).atHost (some (.complete true))⟩
  rw [runFor_step hstep, hrun, hreturn]

/-- `s` after the pin samples `ps`, the last of them done, about to read the result. -/
def sampled (s : State) (ps ws : List Word) : State :=
  { s with
    pos := { s.pos with host := some .read, leaf := none }
    scr := { s.scr with p := !s.cfg.busyLevel }
    answers := ws
    draws := s.draws + ps.length
    trace := (ps.map (evRP s.cfg)).reverse ++ s.trace }

/-- Pin samples write nothing and launch nothing. -/
theorem shows_pin (g : Params) (ps : List Word) : Shows (ps.map (evRP g)).reverse ps.length [] [] := by
  refine ⟨by simp, ?_, ?_⟩
  all_goals
    rw [List.filterMap_reverse, List.filterMap_map, List.reverse_eq_nil_iff, List.filterMap_eq_nil_iff]
    exact fun _ _ => rfl

theorem HostReady.reached_sampled (hs : HostReady s l) (ps ws : List Word) :
    Reached (pinDone s) ws ps.length [] [] (sampled s ps ws) := by
  refine ⟨rfl, rfl, ?_, rfl, rfl, rfl, rfl, rfl, rfl, rfl, rfl, rfl, rfl, _, rfl, shows_pin s.cfg ps⟩
  rw [sampled, ← hs.leaf]
  rfl

/-- A sample that says done leads from either label that samples the pin to the reading. -/
theorem hostFollows_done {p : Word} (hl : s.pos.host = some .pin ∨ s.pos.host = some .wait)
    (ha : s.answers = p :: ws) (hp : pinOf s.cfg.pinMask p ≠ s.cfg.busyLevel) :
    hostFollows ((rdPin s).atLeaf none) = sampled s [p] ws := by
  have hn : nextAnswer s = p := by simp [nextAnswer, ha]
  have hdone : pinOf s.cfg.pinMask p = !s.cfg.busyLevel := Bool.eq_not_iff.mpr hp
  have hu : (rdPin s).atLeaf none = { sampled s [p] ws with pos := { s.pos with leaf := none } } := by
    rw [rdPin, memRead, hn, hdone, afterDraw, ha]
    rfl
  obtain hl | hl := hl
  all_goals
    rw [hu, hostFollows]
    simp [sampled, hl]

theorem HostReady.step_pin_done {p : Word} (hs : HostReady s .pin) (ha : s.answers = p :: ws)
    (hp : pinOf s.cfg.pinMask p ≠ s.cfg.busyLevel) : step s = .next (sampled s [p] ws) := by
  have hk : pick s = .op .rdPin s := pick_at_host hs.trans hs.proto hs.label (.inl hs.leaf)
  have hself : rdPin s = (rdPin s).atLeaf none := by
    rw [← hs.leaf]
    rfl
  have hperform : perform .rdPin hostFollows s = .next (hostFollows (rdPin s)) := by
    simp [perform, exec, execRdPin, hs.leaf]
  rw [step_quiet hs.config (.inl ⟨hs.quiet, rfl⟩), seqStep_host hs.trans hs.proto hs.label hk, hperform, hself,
    hostFollows_done (.inl hs.label) ha hp]
  rintro t ⟨⟩
  exact ⟨hs.trans, hs.proto, hs.label⟩

/-- The pass of WAIT_DONE that ends it, the loop's first or a later one (R264). -/
theorem step_wait_done {p : Word} (hc : configOk s) (hh : s.hostIn = []) (ht : s.pos.trans = none) (hpr : s.pos.proto = none)
    (hl : s.pos.host = some .wait) (hf : s.pos.leaf = none ∨ s.pos.leaf = some .waitDone) (ha : s.answers = p :: ws)
    (hp : pinOf s.cfg.pinMask p ≠ s.cfg.busyLevel) : step s = .next (sampled s [p] ws) := by
  have hk : pick s = .op .waitDone s := pick_at_host ht hpr hl (hf.imp_right fun h => ⟨h, rfl⟩)
  have hpass : waitDonePass s = (rdPin s).atLeaf none := by
    simp [waitDonePass, pinBusy, nextAnswer, ha, hp]
  have hperform : perform .waitDone hostFollows s = .next (hostFollows (waitDonePass s)) := by
    simp [perform, exec, execWaitDone, nextAnswer, ha, hp]
  rw [step_quiet hc (.inl ⟨hh, rfl⟩), seqStep_host ht hpr hl hk, hperform, hpass, hostFollows_done (.inr hl) ha hp]
  rintro t ⟨⟩
  exact ⟨ht, hpr, hl⟩

/-- WAIT_DONE through any number of busy samples, to its end (R264). -/
theorem HostReady.run_wait_done {busy : List Word} {p : Word} (hs : HostReady s .wait) (ha : s.answers = busy ++ p :: ws)
    (hb : ∀ b ∈ busy, pinOf s.cfg.pinMask b = s.cfg.busyLevel) (hp : pinOf s.cfg.pinMask p ≠ s.cfg.busyLevel) :
    runFor (busy.length + 1) s = .next (sampled s (busy ++ [p]) ws) := by
  have hk : pick s = .op .waitDone s := pick_at_host hs.trans hs.proto hs.label (.inl hs.leaf)
  rw [runFor_add (run_pin_spin busy s (p :: ws) hs.config hs.quiet hk ha hb)]
  refine (runFor_step (k := 0) (step_wait_done (by exact hs.config) (by exact hs.quiet) (by exact hs.trans)
    (by exact hs.proto) (by exact hs.label) ?_ (by rfl) (by exact hp))).trans ?_
  · by_cases h : busy = [] <;> simp [h, hs.leaf]
  · by_cases h : busy = [] <;> simp [h, sampled, Nat.add_assoc]

/-! ### Acceptance and completion -/

/-- `s` with the command `op` accepted, and its first operation at `l` (R260 to R263). -/
def commanded (s : State) (op : HostOp) (l : HostLabel) : State := (accept op (s.setHostIn [])).atHost (some l)

theorem hostReady_commanded (hc : configOk s) (hp : s.pos = Pos.rest) (op : HostOp) (l : HostLabel) :
    HostReady (commanded s op l) l :=
  ⟨hc, rfl, congrArg Pos.leaf hp, congrArg Pos.trans hp, congrArg Pos.proto hp, rfl⟩

theorem step_command {op : BitVec 2} {i : Instr} (hc : configOk s) (hh : s.hostIn = [.cmd op]) (hi : commandOp op = some i) :
    step s = exec i (s.setHostIn []) := by
  rw [step_of_configOk hc, boundary_cmd hh, commandStep, hi]

theorem step_start_idle (hc : configOk s) (hh : s.hostIn = [.cmd 0b01#2]) (hb : s.stat.coreBusy = false) (ha : s.acq = .idle) :
    step s = .next (commanded s .start .begin) := by
  rw [step_command hc hh rfl]
  simp [exec, execStart, hb, beginStart, ha, commanded]

theorem step_pollEnd (hc : configOk s) (hh : s.hostIn = [.cmd 0b10#2]) (hb : s.stat.coreBusy = false)
    (hl : (s.acq = .idle ∧ l = .begin) ∨ (s.acq = .measuring ∧ l = .pin) ∨ (s.acq = .ready ∧ l = .read)) :
    step s = .next (commanded s .pollEnd l) := by
  rw [step_command hc hh rfl]
  obtain ⟨ha, rfl⟩ | ⟨ha, rfl⟩ | ⟨ha, rfl⟩ := hl
  all_goals simp [exec, execPollEnd, hb, beginPollEnd, ha, commanded]

theorem step_blockingRead (hc : configOk s) (hh : s.hostIn = [.cmd 0b11#2]) (hb : s.stat.coreBusy = false) :
    step s = .next (commanded (s.setAcq .idle) .blockingRead .begin) := by
  rw [step_command hc hh rfl, exec, execBlockingRead, State.setHostIn_stat, hb]
  rfl

/-- `s` once a command that met no error is completed, with `ACQ` at `a`. -/
def finished (s : State) (a : Acq) (ready : Bool) : State :=
  { s with hostIn := [], acq := a, pos := Pos.rest, stat := completeFlags ready (acceptFlags s.stat) }

/-- COMPLETE ends the command and responds (R265). -/
theorem Reached.closes {r : Bool} {v : State} (h : Reached w ws n ds vs z) (hw : HostReady w (.complete r))
    (hv : closed w r = v) :
    ∃ u, runFor 1 z = .next u ∧ Reached v ws (n + 1) ds vs u ∧ u.trace.head? = some (.resp r u.result u.raw) :=
  ⟨_, runFor_step (k := 0) (h.ready hw).step_complete, hv ▸ h.complete r, rfl⟩

/-- The fields of a completed command that met no error (R46, R260, R265). -/
theorem statusWord_completed (a : Acq) (r : Bool) (f : Stat) :
    (statusWord a (completeFlags r (acceptFlags f))).extractLsb' 0 13 = 0#8 ++ BitVec.ofBool r ++ 0b10#2 ++ acqBits a := by
  simp only [statusWord, completeFlags, acceptFlags]
  generalize f.cmdIllegal = i
  generalize f.cmdOverrun = o
  revert r i o
  cases a <;> decide

/-- What the host reads once a command that met no error is completed. -/
theorem Reached.status {a : Acq} {r : Bool} (h : Reached (finished s a r) ws n ds vs z) :
    (coreStatus z).extractLsb' 0 13 = 0#8 ++ BitVec.ofBool r ++ 0b10#2 ++ acqBits a ∧
    z.stat.cmdOverrun = s.stat.cmdOverrun ∧ z.stat.cmdIllegal = s.stat.cmdIllegal := by
  rw [coreStatus, h.acq, h.stat]
  exact ⟨statusWord_completed a r s.stat, rfl, rfl⟩

theorem Reached.history (h : Reached s ws n ds vs z) :
    z.trace.length = s.trace.length + n ∧ z.trace.filterMap Event.dataWrite? = ds ++ s.trace.filterMap Event.dataWrite? ∧
    z.trace.filterMap Event.bcw? = vs ++ s.trace.filterMap Event.bcw? := by
  obtain ⟨es, htrace, hlen, hdata, hbcw⟩ := h.events
  rw [htrace, List.length_append, List.filterMap_append, List.filterMap_append, hlen, hdata, hbcw]
  exact ⟨Nat.add_comm _ _, rfl, rfl⟩

/-! ### Commands that begin a conversion -/

theorem closed_converted (hpos : s.pos = Pos.rest) (o : HostOp) :
    closed (converted (commanded s o .begin) (.complete false)) false = finished s .measuring false := by
  cases s
  obtain rfl : _ = Pos.rest := hpos
  rfl

/-- Settles O50: the acceptance, BEGIN_CONV and COMPLETE. -/
theorem startFromIdleBeginsAConversion : Obligations.StartFromIdleBeginsAConversion := by
  intro s op a b r rest hc hop hh hpos hb hacq hla hlb hw hri hre hans
  obtain ⟨o, ho, hstep⟩ : ∃ o, o ≠ HostOp.blockingRead ∧ step s = .next (commanded s o .begin) := by
    obtain rfl | rfl := hop
    · exact ⟨.start, nofun, step_start_idle hc hh hb hacq⟩
    · exact ⟨.pollEnd, nofun, step_pollEnd hc hh hb (.inl ⟨hacq, rfl⟩)⟩
  have hs : HostReady (commanded s o .begin) .begin := hostReady_commanded hc hpos o .begin
  have hgood : receiveRetries (errorOf s.cfg r.we) = false := by rw [hre.2]; rfl
  obtain ⟨z, hrun, hz⟩ := run_conversion (m := .complete false) hs rfl (by simp [commanded, ho]) ⟨hla, hlb, hw, hri, hgood⟩
    hre.2 (by simpa [commanded] using hans)
  obtain ⟨u, hlast, hu, hhead⟩ := hz.closes (hs.atHost rfl rfl rfl) (closed_converted hpos o)
  obtain ⟨hstatus, hover, hill⟩ := hu.status
  obtain ⟨hlen, hdata, hbcw⟩ := hu.history
  rw [hu.raw, hu.result] at hhead
  exact ⟨u, (runFor_step (k := 42) hstep).trans ((runFor_add (b := 1) hrun).trans hlast), hu.pos, hu.acq, hstatus, hover,
    hill, hu.raw, hu.result, hu.cfg, hu.slot, hu.hostIn, hu.answers, hu.cfgWord, hu.rr, hu.mag, hu.p, hlen, hhead, hdata, hbcw⟩

/-! ### Commands that deliver a reading -/

/-- `s` with the command `op` accepted, about to read the result, with `b` in `P` (R262, R263). -/
def aboutToRead (s : State) (op : HostOp) (b : Bool) : State := (commanded s op .read).setScr { s.scr with p := b }

/-- `s` with `b` in `P`, and with `raw` and the configuration `c` read, decoded and published (R262, R263; 42 R228). -/
def published (s : State) (b : Bool) (raw c : Half) : State :=
  { s with
    raw := raw
    result := (magnitude raw).setWidth 32
    scr := { s.scr with p := b, rr := raw, mag := magnitude raw, cfgWord := c } }

theorem closed_delivered (hpos : s.pos = Pos.rest) (op : HostOp) (b : Bool) (raw c : Half) :
    closed (delivered (aboutToRead s op b) raw c) true = finished (published s b raw c) .idle true := by
  cases s
  obtain rfl : _ = Pos.rest := hpos
  rfl

/-- From the reading to the completion: READ_RESULT, COMPLETE and the response (R262, R263, R265). -/
theorem Reached.delivers {op : HostOp} {p : Bool} {a b d e : List Word} {r c : Attempt} {rest : List Word}
    (hy : Reached (aboutToRead s op p) (a ++ r.answers ++ b ++ c.answers ++ d ++ e ++ rest) n ds vs y) (hc : configOk s)
    (hpos : s.pos = Pos.rest) (hr : CleanReading s.cfg a b r c d e) :
    ∃ u, runFor 67 y = .next u ∧
      Reached (finished (published s p (r.raw s.cfg) (c.raw s.cfg)) .idle true) rest (58 + n + 1)
        ((readSends (c.raw s.cfg)).map (dataWord s.cfg.layout) ++ ds) (readLaunches ++ vs) u ∧
      u.trace.head? = some (.resp true u.result u.raw) := by
  have hs : HostReady (aboutToRead s op p) .read := (hostReady_commanded hc hpos op .read).atHost rfl rfl rfl
  have hcfg : y.cfg = s.cfg := hy.cfg
  obtain ⟨z, hrun, hz⟩ := run_reading (hy.ready hs) (by rw [hy.stat]; rfl) (by rwa [hcfg]) hy.answers
  rw [hcfg] at hz
  obtain ⟨u, hlast, hu⟩ := ((hy.delivered _ _).trans hz).closes ⟨hs.config, hs.quiet, hs.leaf, hs.trans, rfl, rfl⟩
    (closed_delivered hpos op p _ _)
  exact ⟨u, (runFor_add (b := 1) hrun).trans hlast, hu⟩

/-- The reading published is the exact product of mantissa and power of two (42 R220). -/
theorem result_toNat (raw : Half) :
    ((magnitude raw).setWidth 32).toNat = (raw.extractLsb' 0 12).toNat * 2 ^ (raw.extractLsb' 12 4).toNat := by
  obtain ⟨heq, -⟩ := magnitude_toNat raw
  rw [BitVec.toNat_setWidth, Nat.mod_eq_of_lt ((magnitude raw).isLt.trans (by decide)), heq]
  rfl

/-- POLL_END up to the reading: in Measuring the pin is sampled done first, in Ready it is not sampled (R262). -/
theorem run_pollEnd_to_reading {pin : List Word} (hc : configOk s) (hh : s.hostIn = [.cmd 0b10#2]) (hpos : s.pos = Pos.rest)
    (hb : s.stat.coreBusy = false)
    (hpin : (s.acq = .measuring ∧ ∃ p, pin = [p] ∧ pinOf s.cfg.pinMask p ≠ s.cfg.busyLevel) ∨ (s.acq = .ready ∧ pin = []))
    (ha : s.answers = pin ++ ws) :
    ∃ y, runFor (1 + pin.length) s = .next y ∧
      Reached (aboutToRead s .pollEnd (if pin = [] then s.scr.p else !s.cfg.busyLevel)) ws pin.length [] [] y := by
  obtain ⟨hacq, p, rfl, hp⟩ | ⟨hacq, rfl⟩ := hpin
  · have hs : HostReady (commanded s .pollEnd .pin) .pin := hostReady_commanded hc hpos .pollEnd .pin
    have hstep := step_pollEnd hc hh hb (.inr (.inl ⟨hacq, rfl⟩))
    exact ⟨_, (runFor_step hstep).trans (runFor_step (k := 0) (hs.step_pin_done ha hp)), hs.reached_sampled [p] ws⟩
  · exact ⟨_, runFor_step (k := 0) (step_pollEnd hc hh hb (.inr (.inr ⟨hacq, rfl⟩))), Reached.refl ha⟩

/-- Settles O51: the acceptance, the sample in Measuring, READ_RESULT and COMPLETE. -/
theorem pollEndDeliversTheReading : Obligations.PollEndDeliversTheReading := by
  intro s pin a b r c d e rest hc hh hpos hb hpin hla hlb hld hle hw hri hre hci hce hans
  obtain ⟨y, hfirst, hy⟩ := run_pollEnd_to_reading hc hh hpos hb hpin hans
  obtain ⟨u, hlast, hu, hhead⟩ := hy.delivers hc hpos ⟨hla, hlb, hld, hle, hw, hri, hre, hci, hce⟩
  obtain ⟨hstatus, hover, hill⟩ := hu.status
  obtain ⟨hlen, hdata, hbcw⟩ := hu.history
  rw [List.append_nil] at hdata hbcw
  refine ⟨u, ?_, hu.pos, hu.acq, hstatus, hover, hill, hu.raw, ?_, hu.cfgWord, hu.cfg, hu.slot, hu.hostIn, hu.answers, hu.p,
    hlen.trans ?_, hhead, hdata, hbcw⟩
  · rw [show 68 + pin.length = 1 + pin.length + 67 by omega, runFor_add hfirst, hlast]
  · rw [hu.result]
    exact result_toNat _
  · show s.trace.length + _ = _
    omega

/-- BLOCKING_READ up to the reading: BEGIN_CONV from Idle, and WAIT_DONE (R263, R264). -/
theorem run_blockingRead_to_reading {l k busy : List Word} {q : Attempt} {p : Word} (hc : configOk s)
    (hh : s.hostIn = [.cmd 0b11#2]) (hpos : s.pos = Pos.rest) (hb : s.stat.coreBusy = false)
    (hconv : CleanConversion s.cfg l k q) (hq : errorOf s.cfg q.we = 0)
    (hbusy : ∀ w ∈ busy, pinOf s.cfg.pinMask w = s.cfg.busyLevel) (hp : pinOf s.cfg.pinMask p ≠ s.cfg.busyLevel)
    (ha : s.answers = l ++ (k ++ (q.answers ++ (busy ++ p :: ws)))) :
    ∃ y, runFor (43 + busy.length) s = .next y ∧
      Reached (aboutToRead (s.setAcq .measuring) .blockingRead (!s.cfg.busyLevel)) ws (busy.length + 1 + 37)
        ((conversionSends s.cfg).map (dataWord s.cfg.layout)) conversionLaunches y := by
  have hs : HostReady (commanded (s.setAcq .idle) .blockingRead .begin) .begin :=
    hostReady_commanded (s := s.setAcq .idle) hc hpos _ _
  obtain ⟨z, hrun, hz⟩ := run_conversion (m := .wait) hs rfl rfl hconv hq ha
  have hw : HostReady z .wait := hz.ready (hs.atHost rfl rfl rfl)
  have hcfg : z.cfg = s.cfg := hz.cfg
  have hwait := hw.run_wait_done hz.answers (by rwa [hcfg]) (by rwa [hcfg])
  have hy := hz.pinDone.trans (hw.reached_sampled (busy ++ [p]) ws)
  rw [List.length_append, List.length_singleton] at hy
  refine ⟨_, ?_, hy⟩
  rw [show 43 + busy.length = 41 + (busy.length + 1) + 1 by omega, runFor_step (step_blockingRead hc hh hb),
    runFor_add hrun, hwait]

/-- Settles O52: the acceptance, BEGIN_CONV, WAIT_DONE, READ_RESULT and COMPLETE. -/
theorem blockingReadDeliversTheReading : Obligations.BlockingReadDeliversTheReading := by
  intro s l k q busy p a b r c d e rest hc hh hpos hb hll hlk hla hlb hld hle hw hqi hqe hbusy hp hri hre hci hce hans
  simp only [List.forall_mem_append] at hw
  obtain ⟨⟨⟨⟨⟨hwl, hwk⟩, hwa⟩, hwb⟩, hwd⟩, hwe⟩ := hw
  have hgood : receiveRetries (errorOf s.cfg q.we) = false := by rw [hqe.2]; rfl
  have hconv : CleanConversion s.cfg l k q := ⟨hll, hlk, List.forall_mem_append.mpr ⟨hwl, hwk⟩, hqi, hgood⟩
  have hread : CleanReading s.cfg a b r c d e :=
    ⟨hla, hlb, hld, hle, by simpa only [List.forall_mem_append] using ⟨⟨⟨hwa, hwb⟩, hwd⟩, hwe⟩, hri, hre, hci, hce⟩
  obtain ⟨y, hfirst, hy⟩ := run_blockingRead_to_reading (ws := a ++ r.answers ++ b ++ c.answers ++ d ++ e ++ rest) hc hh hpos
    hb hconv hqe.2 hbusy hp (by simpa using hans)
  obtain ⟨u, hlast, hu, hhead⟩ := hy.delivers (s := s.setAcq .measuring) hc hpos hread
  obtain ⟨hstatus, hover, hill⟩ := hu.status
  obtain ⟨hlen, hdata, hbcw⟩ := hu.history
  refine ⟨u, ?_, hu.pos, hu.acq, hstatus, hover, hill, hu.raw, ?_, hu.cfgWord, hu.p, hu.cfg, hu.slot, hu.hostIn, hu.answers,
    hlen.trans ?_, hhead, ?_, hbcw⟩
  · rw [show 110 + busy.length = 43 + busy.length + 67 by omega, runFor_add hfirst, hlast]
  · rw [hu.result]
    exact result_toNat _
  · show s.trace.length + _ = _
    omega
  · rw [List.map_append]
    exact hdata

end Sys2Proof.Machine
end

section
/-! PROOFS. Commands turned away and accepted, the passes of WAIT_DONE, and the commands that end with no conversion and no reading
(43_acquisition R260 to R265). -/
namespace Sys2Proof.Machine

variable {s t : State}

/-! ### Commands turned away -/

/-- While CORE is busy every op code, the reserved one too, only sets CMD_OVERRUN: busy is tested first (R260, R305). -/
theorem commandStep_of_busy (op : BitVec 2) (hb : s.stat.coreBusy = true) : commandStep op s = .next (overrun s) := by
  unfold commandStep
  split
  · next i hi =>
    obtain ⟨-, rfl⟩ | ⟨-, rfl⟩ | ⟨-, rfl⟩ := commandOp_cases hi
    all_goals exact congrArg Host.Outcome.next (if_pos hb)
  · exact congrArg Host.Outcome.next (if_pos hb)

/-- While CORE is not busy the reserved op code only sets CMD_ILLEGAL (R260). -/
theorem commandStep_reserved (hb : s.stat.coreBusy = false) :
    commandStep 0b00#2 s = .next (s.setStat (illegalFlags s.stat)) := by
  show Host.Outcome.next (reservedCommand s) = _
  simp [reservedCommand, hb]

/-- Settles O44: the boundary takes the command event, which sets the one bit. -/
theorem commandsTurnedAwaySetOneBit : Obligations.CommandsTurnedAwaySetOneBit := by
  intro s op rest hc hh
  rw [step_of_configOk hc, boundary_cmd hh]
  refine ⟨fun hb => commandStep_of_busy op hb, fun hb hop => ?_⟩
  rw [hop]
  exact commandStep_reserved hb

/-! ### Commands accepted -/

theorem beginStart_eq (s : State) :
    beginStart s = s.atHost (some (if s.acq = .idle then .begin else .complete false)) := by
  cases h : s.acq <;> simp [beginStart, h]

theorem beginPollEnd_eq (s : State) :
    beginPollEnd s = s.atHost (some (if s.acq = .idle then .begin else if s.acq = .measuring then .pin else .read)) := by
  cases h : s.acq <;> simp [beginPollEnd, h]

theorem exec_start_accepted (hb : s.stat.coreBusy = false) : exec .start s = .next (beginStart (accept .start s)) := by
  simp [exec, execStart, hb]

theorem exec_pollEnd_accepted (hb : s.stat.coreBusy = false) :
    exec .pollEnd s = .next (beginPollEnd (accept .pollEnd s)) := by
  simp [exec, execPollEnd, hb]

theorem exec_blockingRead_accepted (hb : s.stat.coreBusy = false) :
    exec .blockingRead s = .next (beginBlockingRead (accept .blockingRead s)) := by
  simp [exec, execBlockingRead, hb]

/-- Settles O45: acceptance writes the fields and CUR_OP, and the head of each command its first label. -/
theorem commandsAreAccepted : Obligations.CommandsAreAccepted := by
  intro s hb
  refine ⟨?_, ?_, exec_blockingRead_accepted hb⟩
  · rw [exec_start_accepted hb, beginStart_eq]
    rfl
  · rw [exec_pollEnd_accepted hb, beginPollEnd_eq]
    rfl

/-! ### WAIT_DONE -/

/-- A pass is RD_PIN, and its sample decides whether the loop goes on (R264). -/
theorem exec_waitDone (s : State) : exec .waitDone s = .next { s with
    scr := { s.scr with p := pinOf s.cfg.pinMask (nextAnswer s) }
    pos := { s.pos with leaf := if pinOf s.cfg.pinMask (nextAnswer s) = s.cfg.busyLevel then some .waitDone else none }
    answers := s.answers.tail
    draws := s.draws + 1
    trace := .read .pin s.cfg.pinAddr (nextAnswer s) :: s.trace } := by
  have hbusy : pinBusy (rdPin s) = decide (pinOf s.cfg.pinMask (nextAnswer s) = s.cfg.busyLevel) :=
    Bool.beq_eq_decide_eq _ _
  rw [exec, execWaitDone, waitDonePass, hbusy]
  simp only [decide_eq_true_eq]
  rfl

/-- An operation that ends under no transport and no protocol label returns to the host command that called it, if one did. -/
theorem step_returnToHost {i : Instr} (hc : configOk s) (hh : s.hostIn = []) (hp : pick s = .op i s)
    (ht : s.pos.trans = none) (hpr : s.pos.proto = none) (he : exec i s = .next t)
    (hpos : t.pos = { s.pos with leaf := none }) : step s = .next (returnToHost t) := by
  rw [step_of_configOk hc, boundary_nil hh, seqStep_op hp, he, carryOn_next]
  simp [afterOp, returnToHost, hpos, ht, hpr]

/-- The pass of WAIT_DONE that samples done ends the wait (R264). -/
theorem step_waitDone_ends {w : Word} {rest : List Word} (hc : configOk s) (hh : s.hostIn = [])
    (hp : pick s = .op .waitDone s) (ht : s.pos.trans = none) (hpr : s.pos.proto = none) (ha : s.answers = w :: rest)
    (hw : pinOf s.cfg.pinMask w ≠ s.cfg.busyLevel) : step s = .next (returnToHost (waitDonePass s)) :=
  step_returnToHost hc hh hp ht hpr rfl (by simp [nextAnswer_cons ha, hw])

/-- Busy samples leave WAIT_DONE picked, at the same labels, and write only `P` (R264). -/
theorem run_waitDone_spins {busy rest : List Word} (hc : configOk s) (hh : s.hostIn = [])
    (hp : pick s = .op .waitDone s) (ha : s.answers = busy ++ rest)
    (hb : ∀ b ∈ busy, pinOf s.cfg.pinMask b = s.cfg.busyLevel) :
    ∃ t, runFor busy.length s = .next t ∧ pick t = .op .waitDone t ∧ t.cfg = s.cfg ∧ t.hostIn = [] ∧
      t.pos = { s.pos with leaf := t.pos.leaf } ∧ t.answers = rest ∧ t.stat = s.stat ∧ t.acq = s.acq ∧
      t.scr = (if busy = [] then s.scr else { s.scr with p := s.cfg.busyLevel }) ∧
      t.trace = (busy.map (evRP s.cfg)).reverse ++ s.trace := by
  cases busy with
  | nil => exact ⟨s, rfl, hp, rfl, hh, rfl, ha, rfl, rfl, rfl, rfl⟩
  | cons b bs =>
    exact ⟨_, run_pin_spin (b :: bs) s rest hc hh hp ha hb, rfl, rfl, hh, rfl, rfl, rfl, rfl, rfl, rfl⟩

/-- After WAIT_DONE, BLOCKING_READ reads the result (R263). -/
theorem returnToHost_wait (h : t.pos.host = some .wait) : returnToHost t = t.atHost (some .read) := by
  rw [returnToHost, h]
  rfl

/-- Settles O46: each busy sample is a step that leaves WAIT_DONE picked, and the first done one a step that ends it. -/
theorem waitDonePassSamplesThePin : Obligations.WaitDonePassSamplesThePin := by
  refine fun s => ⟨exec_waitDone s, rfl, fun busy rest hc hh hfit hp ha hb => ?_⟩
  obtain ⟨ht, hpr⟩ := labels_of_pick_waitDone hfit hp
  obtain ⟨t, hrun, hpick, hcfg, hin, hpos, hans, hstat, hacq, hscr, htrace⟩ := run_waitDone_spins hc hh hp ha hb
  refine ⟨⟨t, hrun, hpick, hans, hstat, hacq, hscr, htrace⟩, fun w tail hr hw => ?_⟩
  have ha' : t.answers = w :: tail := hans.trans hr
  have hlast := step_waitDone_ends (by rwa [configOk, hcfg]) hin hpick (by rw [hpos, ht]) (by rw [hpos, hpr]) ha'
    (by rwa [hcfg])
  have hdone : (waitDonePass t).pos = { s.pos with leaf := none } := by
    rw [waitDonePass_pos, hpos]
    simp [nextAnswer_cons ha', hcfg, hw]
  obtain ⟨-, hscr', hstat', -, -, -, -, -, -, hans', -, htrace', -, -, -, -, hleaf', -⟩ := returnToHost_keeps (waitDonePass t)
  refine ⟨_, ?_, ?_, ?_, hstat'.trans hstat, ?_, fun hwait => ?_, ?_⟩
  · rw [runFor_add hrun, runFor_step (k := 0) hlast, runFor_zero]
  · rw [hleaf', hdone]
  · rw [hans', waitDonePass_answers, ha', List.tail_cons]
  · rw [hscr', waitDonePass_scr, nextAnswer_cons ha', hcfg, hscr]
    split <;> rfl
  · rw [returnToHost_wait (by rw [hdone, hwait])]
    exact ⟨hacq, congrArg (fun p : Pos => { p with host := some .read }) hdone⟩
  · rw [htrace', waitDonePass_trace, nextAnswer_cons ha', hcfg, htrace, evRP]

/-! ### Commands without a conversion or a reading -/

/-- Settles O47: at the label of COMPLETE the step is the completion. -/
theorem completionResponds : Obligations.CompletionResponds :=
  fun _ _ hc hh hf ht hp hl => HostReady.step_complete ⟨hc, hh, hf, ht, hp, hl⟩

theorem step_start_notIdle (hc : configOk s) (hh : s.hostIn = [.cmd 0b01#2]) (hb : s.stat.coreBusy = false)
    (ha : s.acq ≠ .idle) : step s = .next (commanded s .start (.complete false)) := by
  rw [step_command hc hh rfl, exec_start_accepted (by exact hb), beginStart_eq, accept_acq, State.setHostIn_acq, if_neg ha]
  rfl

/-- From rest, a command accepted to be completed at once writes the fields of acceptance and completion, and responds
(R260, R265). -/
theorem run_commanded_complete (hc : configOk s) (hpos : s.pos = Pos.rest) (op : HostOp) (r : Bool) :
    runFor 1 (commanded s op (.complete r)) =
      .next (((s.setHostIn []).setStat (completeFlags r (acceptFlags s.stat))).record (.resp r s.result s.raw)) := by
  rw [runFor_step (k := 0) (hostReady_commanded hc hpos op (.complete r)).step_complete]
  cases s
  obtain rfl : _ = Pos.rest := hpos
  rfl

/-- Settles O48: the acceptance and the completion. -/
theorem startWhileNotIdleDoesNothing : Obligations.StartWhileNotIdleDoesNothing := by
  intro s hc hh hpos hb ha
  rw [runFor_step (step_start_notIdle hc hh hb ha), run_commanded_complete hc hpos]
  rfl

/-- The one sample of POLL_END, when it says busy, leads to the completion (R262). -/
theorem HostReady.step_pin_busy (hs : HostReady s .pin) (hb : pinOf s.cfg.pinMask (nextAnswer s) = s.cfg.busyLevel) :
    step s = .next ((rdPin s).atHost (some (.complete false))) := by
  have hk : pick s = .op .rdPin s := pick_at_host hs.trans hs.proto hs.label (.inl hs.leaf)
  have hbusy : pinBusy (rdPin s) = true := beq_iff_eq.mpr hb
  have hreturn : returnToHost (rdPin s) = (rdPin s).atHost (some (.complete false)) := by
    simp [returnToHost, hs.label, advanceHost, hbusy]
  rw [step_returnToHost hs.config hs.quiet hk hs.trans hs.proto rfl (by rw [rdPin_pos, ← hs.leaf]), hreturn]

/-- A sample that says busy, as the answers give it (R262). -/
theorem rdPin_busy {w : Word} {rest : List Word} (ha : s.answers = w :: rest)
    (hw : pinOf s.cfg.pinMask w = s.cfg.busyLevel) : rdPin s = { s with
      scr := { s.scr with p := s.cfg.busyLevel }
      answers := rest
      draws := s.draws + 1
      trace := evRP s.cfg w :: s.trace } := by
  rw [rdPin, memRead, afterDraw, nextAnswer_cons ha, hw, ha]
  rfl

/-- Settles O49: the acceptance, the one sample and the completion. -/
theorem pollEndWhileBusySamplesOnce : Obligations.PollEndWhileBusySamplesOnce := by
  intro s w rest hc hh hpos hb hacq ha hw
  have hsample : step (commanded s .pollEnd .pin) = .next (commanded (rdPin s) .pollEnd (.complete false)) :=
    (hostReady_commanded hc hpos .pollEnd .pin).step_pin_busy
      (by rwa [nextAnswer_cons (s := commanded s .pollEnd .pin) ha])
  rw [runFor_step (step_pollEnd hc hh hb (.inr (.inl ⟨hacq, rfl⟩))), runFor_step hsample,
    run_commanded_complete (s := rdPin s) hc hpos, rdPin_busy ha hw]
  rfl

end Sys2Proof.Machine
end

section
/-! PROOFS. No error, answer or command stops CORE (60_exceptions R300, R302): a transport sequence that fits its registers has an
operation that answers at every label, and goes on to a label that fits them too (41_transport R182, R186). -/
namespace Sys2Proof.Machine

variable {s t u w : State} {l : TransLabel}

/-- The transport sequence in progress, if there is one, fits its registers: the last part of `canGoOn`. -/
def SequenceFits (s : State) : Prop := ∀ l, s.pos.trans = some l → transFits l s.scr s.port.dir

theorem sequenceFits_of_trans_none (h : s.pos.trans = none) : SequenceFits s := fun _ hl => nomatch h.symm.trans hl

theorem sequenceFits_of_trans_some (h : s.pos.trans = some l) (hl : transFits l s.scr s.port.dir) : SequenceFits s :=
  fun _ hm => Option.some.inj (h.symm.trans hm) ▸ hl

/-! ### The operation at a transport label -/

/-- What holds once the operation at `l` is done: the label still fits the registers, and the two address labels have written the
direction of their sequence. -/
def LabelDone (l : TransLabel) (t : State) : Prop :=
  transFits l t.scr t.port.dir ∧ (l = .sSA → t.port.dir = .send) ∧ (l = .rSA → t.port.dir = .recv)

/-- An index below `N`, which is 3 at most, has its byte (10_state R39). -/
theorem txAt_of_lt : ∀ {i n : BitVec 2} (r : Scratch), i < n → ∃ b, txAt r i = some b
  | 0#2, _, r, _ => ⟨r.tx0, rfl⟩
  | 1#2, _, r, _ => ⟨r.tx1, rfl⟩
  | 2#2, _, r, _ => ⟨r.tx2, rfl⟩
  | 3#2, n, _, h => absurd h (by revert n; decide)

/-- At a label that fits, the operation answers: a bus command word stands in the direction last written, and S_D has its byte. -/
theorem exec_at_trans (h : transFits l s.scr s.port.dir) :
    ∃ i t, transPick l s = .op i s ∧ exec i s = .next t ∧ LabelDone l t := by
  cases l with
  | sSA => exact ⟨_, _, rfl, rfl, h, fun _ => rfl, nofun⟩
  | rSA => exact ⟨_, _, rfl, rfl, h, nofun, fun _ => rfl⟩
  | sC0 =>
    by_cases hn : s.scr.n = 1
    · exact ⟨.sendSingle, _, by simp only [transPick, if_pos hn], issueBcw_of_dir h.2 rfl, h, nofun, nofun⟩
    · exact ⟨.sendStart, _, by simp only [transPick, if_neg hn], issueBcw_of_dir h.2 rfl, h, nofun, nofun⟩
  | sC =>
    by_cases hn : s.scr.i = s.scr.n - 1
    · exact ⟨.sendFinish, _, by simp only [transPick, if_pos hn], issueBcw_of_dir h.2 rfl, h, nofun, nofun⟩
    · exact ⟨.sendCont, _, by simp only [transPick, if_neg hn], issueBcw_of_dir h.2 rfl, h, nofun, nofun⟩
  | sD =>
    obtain ⟨b, hb⟩ := txAt_of_lt s.scr h.1
    exact ⟨.wrData b, _, by simp [transPick, hb], rfl, h, nofun, nofun⟩
  | sAB => exact ⟨.sendErrStop, _, rfl, issueBcw_of_dir h.2 rfl, h, nofun, nofun⟩
  | rC0 => exact ⟨.recvStartAck, _, rfl, issueBcw_of_dir h.2.2 rfl, h, nofun, nofun⟩
  | rC1 => exact ⟨.recvFinish, _, rfl, issueBcw_of_dir h.2.2 rfl, h, nofun, nofun⟩
  | _ => exact ⟨_, _, rfl, rfl, h, nofun, nofun⟩

/-! ### The label that follows -/

theorem sequenceFits_endTransport (x : Bool) (s : State) : SequenceFits (endTransport x s) := by
  obtain ⟨-, -, -, -, -, -, -, -, -, -, htrans, -⟩ := endTransport_keeps x s
  exact sequenceFits_of_trans_none htrans

/-- The head of SEND's loop goes to S_E only while `I < N` (R182). -/
theorem sequenceFits_sendLoop (hd : s.port.dir = .send) : SequenceFits (sendLoop s) := by
  refine sequenceFits_of_trans_some rfl ?_
  split
  · next hi => exact ⟨hi, hd⟩
  · exact hd

/-- Below RETRY_MAX the attempt counter does not wrap. -/
theorem att_succ_fits : ∀ {a : BitVec 3}, 1 ≤ a → a ≤ retryMax → a ≠ retryMax → 1 ≤ a + 1 ∧ a + 1 ≤ retryMax := by
  decide

/-- A receive attempt is counted up only below RETRY_MAX (R186, R187). -/
theorem sequenceFits_endAttempt (h1 : 1 ≤ s.scr.att) (h5 : s.scr.att ≤ retryMax) : SequenceFits (endAttempt s) := by
  unfold endAttempt
  split
  · split
    · exact sequenceFits_endTransport _ _
    · next hne => exact sequenceFits_of_trans_some rfl (att_succ_fits h1 h5 hne)
  · exact sequenceFits_endTransport _ _

/-- Where the operation at a label is done, the label that follows fits the registers too (R182, R186). -/
theorem sequenceFits_advanceTrans (h : LabelDone l t) : SequenceFits (advanceTrans l t) := by
  obtain ⟨hfit, hsend, hrecv⟩ := h
  cases l with
  | sSA => exact sequenceFits_of_trans_some rfl ⟨hfit, hsend rfl⟩
  | sW1 | sW => exact sequenceFits_sendLoop hfit.2
  | sE =>
    refine sequenceFits_of_trans_some rfl ?_
    split
    all_goals exact hfit
  | sAB | sEF => exact sequenceFits_endTransport false t
  | rSA => exact sequenceFits_of_trans_some rfl ⟨hfit.1, hfit.2, hrecv rfl⟩
  | rE => exact sequenceFits_endAttempt hfit.1 hfit.2.1
  | _ => exact sequenceFits_of_trans_some rfl hfit

/-! ### An operation under no transport label -/

/-- Under no transport label, and with nothing in the slot, whatever the sequencer performs answers. -/
theorem exec_without_trans (ht : u.pos.trans = none) (hs : u.slot = none) :
    pick u = .idle ∨ (∃ r, pick u = .complete r) ∨ ∃ i w, pick u = .op i u ∧ exec i u = .next w := by
  unfold pick
  rw [ht]
  cases u.pos.leaf with
  | some x => cases x <;> exact .inr (.inr ⟨_, _, rfl, rfl⟩)
  | none =>
    cases u.pos.proto with
    | some m => cases m <;> exact .inr (.inr ⟨_, _, rfl, rfl⟩)
    | none =>
      cases u.pos.host with
      | some m =>
        cases m with
        | complete r => exact .inr (.inl ⟨r, rfl⟩)
        | _ => exact .inr (.inr ⟨_, _, rfl, rfl⟩)
      | none => simp [slotPick, hs]

/-- An operation under no transport label enters no primitive, or one whose operand load fits its first label (R183 to R186). -/
theorem sequenceFits_exec {i : Instr} (ht : s.pos.trans = none) (h : exec i s = .next t) : SequenceFits t := by
  cases i with
  | send1 | send2 | send3 | cfgLatchClr | cfgLatchSet =>
    obtain rfl := Host.Outcome.next.inj h
    exact sequenceFits_of_trans_some (l := .sW0) rfl (by simp [transFits, enterSend, loadSend1, loadSend2, loadSend3])
  | recv2 =>
    obtain rfl := Host.Outcome.next.inj h
    exact sequenceFits_of_trans_some (l := .rW0) rfl ⟨by simp, by simp [retryMax]⟩
  | wrCtl c =>
    obtain ⟨_, rfl⟩ := exec_launch (.inr ⟨c, rfl⟩) h
    exact sequenceFits_of_trans_none ht
  | sendSingle | sendStart | sendCont | sendFinish | sendErrStop | recvStartAck | recvFinish =>
    obtain ⟨_, rfl⟩ := exec_launch (.inl rfl) h
    exact sequenceFits_of_trans_none ht
  | start | pollEnd | blockingRead =>
    obtain ⟨-, rfl⟩ | ⟨-, _, _, _, rfl, -⟩ := exec_command rfl h
    all_goals exact sequenceFits_of_trans_none ht
  | _ =>
    obtain rfl := Host.Outcome.next.inj h
    exact sequenceFits_of_trans_none ht

/-- Carrying on from under no transport label enters none. -/
theorem sequenceFits_afterOp_without_trans {p : Pos} (hp : p.trans = none) (hw : SequenceFits w) :
    SequenceFits (afterOp p w) := by
  simp only [afterOp, hp]
  split
  · exact hw
  · split
    · exact hw
    · next ht =>
      split
      · next m _ =>
        obtain ⟨-, -, -, -, -, -, -, -, -, -, htrans, -⟩ := advanceProto_keeps m w
        exact sequenceFits_of_trans_none (htrans.trans ht)
      · split
        · exact hw
        · split
          · next m _ => cases m <;> exact sequenceFits_of_trans_none ht
          · exact hw

/-! ### The step -/

/-- No operation and no advance of the position writes the parameters or fills the slot, so what is left is the sequence. -/
theorem canGoOn_afterOp {i : Instr} (hu : canGoOn u) (hp : pick u = .op i u) (he : exec i u = .next w)
    (hw : SequenceFits (afterOp u.pos w)) : canGoOn (afterOp u.pos w) := by
  obtain ⟨hc, hs, hfit, -⟩ := hu
  obtain ⟨hcfg, -, -, -, hslot, -⟩ := exec_keeps he
  obtain ⟨hcfg', -, -, -, -, -, -, -, hslot', -⟩ := afterOp_keeps u.pos w
  unfold canGoOn configOk
  rw [hcfg', hcfg, hslot', hslot]
  exact ⟨hc, hs, levelsFit_afterOp hfit hp he, hw⟩

/-- A spin under a transport label is that label's own. -/
theorem leaf_at_trans (hu : levelsFit u.pos) (ht : u.pos.trans = some l) :
    u.pos.leaf = none ∨ u.pos.leaf = some .waitIdle ∧ l.isWait = true := by
  obtain ⟨hidle, hdone, -⟩ := hu
  cases hf : u.pos.leaf with
  | none => exact .inl rfl
  | some x =>
    cases x with
    | waitIdle => exact .inr ⟨rfl, by simpa [ht] using hidle hf⟩
    | waitDone =>
      obtain ⟨hn, -⟩ := hdone hf
      simp [ht] at hn

/-- From a transport label the position goes on to the label that follows, or stays in the label's spin. -/
theorem sequenceFits_afterOp_at_trans (ht : u.pos.trans = some l) (hwt : w.pos.trans = some l) (hd : LabelDone l w) :
    SequenceFits (afterOp u.pos w) := by
  by_cases hf : w.pos.leaf = none
  · have hadv : afterOp u.pos w = advanceTrans l w := by simp [afterOp, hf, ht]
    rw [hadv]
    exact sequenceFits_advanceTrans hd
  · rw [afterOp_of_spin hf]
    exact sequenceFits_of_trans_some hwt hd.1

/-- The sequencer's own step, at a transport label or under none. -/
theorem seqStep_goes_on (hu : canGoOn u) : ∃ t, seqStep u = .next t ∧ canGoOn t := by
  have ⟨_, hs, hfit, hseq⟩ := hu
  cases ht : u.pos.trans with
  | some l =>
    obtain ⟨i, w, hi, he, hd⟩ := exec_at_trans (hseq l ht)
    have hp : pick u = .op i u := (pick_at_trans ht (leaf_at_trans hfit ht)).trans hi
    refine ⟨afterOp u.pos w, by rw [seqStep_op hp, he, carryOn_next], canGoOn_afterOp hu hp he ?_⟩
    exact sequenceFits_afterOp_at_trans ht (exec_picked_trans hp he l ht) hd
  | none =>
    obtain hp | ⟨r, hp⟩ | ⟨i, w, hp, he⟩ := exec_without_trans ht hs
    · exact ⟨u, by simp [seqStep, hp], hu⟩
    · exact ⟨complete r u, seqStep_complete hp, hu⟩
    · refine ⟨afterOp u.pos w, by rw [seqStep_op hp, he, carryOn_next], canGoOn_afterOp hu hp he ?_⟩
      exact sequenceFits_afterOp_without_trans ht (sequenceFits_exec ht he)

/-- A command, accepted or turned away, leaves the sequence in progress and its registers where they are (43 R260). -/
theorem canGoOn_command {i : Instr} (hs : canGoOn s) (hi : formatOf i = .hcmd) (h : exec i s = .next t) : canGoOn t := by
  obtain ⟨-, rfl⟩ | ⟨-, _, _, _, rfl, -⟩ := exec_command hi h
  all_goals exact hs

theorem commandStep_goes_on (op : BitVec 2) (hs : canGoOn s) : ∃ t, commandStep op s = .next t ∧ canGoOn t := by
  unfold commandStep
  split
  · next i hi =>
    obtain ⟨hf, t, he⟩ : formatOf i = .hcmd ∧ ∃ t, exec i s = .next t := by
      obtain ⟨-, rfl⟩ | ⟨-, rfl⟩ | ⟨-, rfl⟩ := commandOp_cases hi
      all_goals exact ⟨rfl, _, rfl⟩
    exact ⟨t, he, canGoOn_command hs hf he⟩
  · refine ⟨_, rfl, ?_⟩
    unfold reservedCommand
    split
    all_goals exact hs

/-- Settles O56: RST puts the position at rest, a command leaves the sequence where it is, and the sequencer's operation answers
and is followed by a label that fits its registers. -/
theorem noErrorStopsTheMachine : Obligations.NoErrorStopsTheMachine := by
  intro s hs
  have hmove : ∀ rest, canGoOn (s.setHostIn rest) := fun _ => hs
  have ⟨hc, hslot, _⟩ := hs
  rw [step_of_configOk hc]
  cases hh : s.hostIn with
  | nil => rw [boundary_nil hh]; exact seqStep_goes_on hs
  | cons m rest =>
    cases m with
    | quiet => rw [boundary_quiet hh]; exact seqStep_goes_on (hmove rest)
    | cmd op => rw [boundary_cmd hh]; exact commandStep_goes_on op (hmove rest)
    | rst => rw [boundary_rst hh]; exact ⟨_, rfl, hc, hslot, levelsFit_rest, sequenceFits_of_trans_none rfl⟩

end Sys2Proof.Machine
end

section
/-! PROOFS. The reset event (70_reset_and_hazards R340, R342, R343): what it gives CORE, and what it leaves of the outside. -/
namespace Sys2Proof.Machine

/-- The host reads all zeros: Idle, and no status bit set (10_state R46). -/
theorem statusWord_idle_zero : statusWord .idle Stat.zero = 0x00000000#32 := by decide

/-- The fields of CORE that RST gives a value of its own (R340); the scratch registers, which it leaves open, are not among
them. -/
theorem resetEvent_resets (s : State) :
    (resetEvent s).acq = .idle ∧ (resetEvent s).pos = Pos.rest ∧ coreStatus (resetEvent s) = 0x00000000#32 ∧
    (resetEvent s).result = 0x00000000#32 ∧ (resetEvent s).raw = 0x0000#16 :=
  ⟨rfl, rfl, statusWord_idle_zero, rfl, rfl⟩

/-- Beside the parameters and the events (`resetEvent_cfg_trace`), RST keeps the bus master's fields, the answers and moves to
come, and the slot (R342, R343). -/
theorem resetEvent_keeps_outside (s : State) :
    (resetEvent s).port = s.port ∧ (resetEvent s).answers = s.answers ∧ (resetEvent s).hostIn = s.hostIn ∧
    (resetEvent s).slot = s.slot := ⟨rfl, rfl, rfl, rfl⟩

/-- Settles O14: at any position the boundary takes RST from the host's moves, and the step is the reset event. -/
theorem resetEventAtAnyBoundary : Obligations.ResetEventAtAnyBoundary := by
  intro s rest hc hh
  obtain ⟨hacq, hpos, hstatus, hresult, hraw⟩ := resetEvent_resets (s.setHostIn rest)
  obtain ⟨hcfg, htrace⟩ := resetEvent_cfg_trace (s.setHostIn rest)
  obtain ⟨hport, hanswers, hhost, hslot⟩ := resetEvent_keeps_outside (s.setHostIn rest)
  exact ⟨resetEvent (s.setHostIn rest), step_rst hc hh, hacq, hpos, hstatus, hresult, hraw, htrace, hport, hanswers, hcfg,
    hhost, hslot⟩

end Sys2Proof.Machine
end

section
/-! PROOFS. The reset state meets the invariants (10_state R57, 70_reset_and_hazards R340). -/
namespace Sys2Proof.Machine

/-- No status bit is set, so none asks for another (R47 to R51). -/
theorem flagsOrdered_zero : flagsOrdered Stat.zero := ⟨nofun, fun _ => rfl, rfl, nofun⟩

/-- The addresses and masks of the reset configuration pass every check of the parameters (20_memory R72, 42 R226). -/
theorem configOk_reset : configOk State.reset := by
  unfold configOk
  decide

/-- RESULT and RAW are 0, as RST leaves them, and no protocol label has decoded yet. -/
theorem readingMatches_reset : readingMatches State.reset := by
  obtain ⟨hdecoding, -⟩ := readingMatches_resetEvent State.reset
  exact ⟨hdecoding, nofun⟩

/-- Nothing is in progress at reset, so no transport label has registers to fit. -/
theorem canGoOn_reset : canGoOn State.reset :=
  ⟨configOk_reset, rfl, levelsFit_rest, sequenceFits_of_trans_none rfl⟩

/-- Settles O57: at reset the position is at rest and every status bit is 0, CORE_BUSY with them; the invariants follow one by
one. -/
theorem resetMeetsTheInvariants : Obligations.ResetMeetsTheInvariants := by
  have hbusy : busyMatches State.reset := ⟨rfl, rfl⟩
  exact ⟨hbusy, flagsOrdered_zero, levelsFit_rest, readingMatches_reset, canGoOn_reset⟩

end Sys2Proof.Machine
end
